-- ==== Sys2Proof/Word.lean ====
section
/-! DEFINITION. The two word types of the machine (spec/00_scope.md R6). -/

namespace Sys2Proof

/-- A 64-bit word: an operand register, a memory cell, a port's data latch (R6, R21, R50). -/
abbrev W64 := BitVec 64

/-- A 128-bit word: one instruction (R6, R80). -/
abbrev W128 := BitVec 128

end Sys2Proof
end

