-- ==== Sys2Proof/Machine/Binary64.lean ====
section
/-! DEFINITION. The numeric reading of a word (spec/00_scope.md R8 to R10): IEEE 754 binary64, in exact
integers. Every finite binary64 number is an integer multiple of 2^-1074, so a word is read as the
integer `num(w) * 2^1074` and every rounding happens once, in `rnd`. The layout is the spec's own mark
[from general knowledge, not in source] (assumption log 28). -/

namespace Sys2Proof.Machine

/-- Bit 63, the sign `s` (R8). -/
def signBit (w : W64) : Bool := w.getLsbD 63

/-- Bits 62:52, the exponent field `e` (R8). -/
def expField (w : W64) : Nat := (w.extractLsb' 52 11).toNat

/-- Bits 51:0, the fraction field `f` (R8). -/
def fracField (w : W64) : Nat := (w.extractLsb' 0 52).toNat

/-- `isNaN(w)` (R8). -/
def isNaN (w : W64) : Bool := expField w == 2047 && fracField w != 0

/-- `isInf(w)` (R8). -/
def isInf (w : W64) : Bool := expField w == 2047 && fracField w == 0

/-- `isFinite(w)` (R8): neither NaN nor infinite. -/
def isFinite (w : W64) : Bool := expField w != 2047

/-- `isZero(w)` (R8): `+0` or `-0`. -/
def isZero (w : W64) : Bool := expField w == 0 && fracField w == 0

/-- The integer `2^1074`: the scale of `scaledNum`. -/
def scale : Nat := 2 ^ 1074

/-- `|num(w)| * 2^1074` for a finite `w` (R8). For an infinite word it is an integer above that of every
finite word, so that the order of `scaledNum` is the order of `num` on every word that is no NaN. -/
def magnitude (w : W64) : Nat :=
  if expField w = 0 then fracField w else (2 ^ 52 + fracField w) * 2 ^ (expField w - 1)

/-- The integer of this size and sign. -/
def signedInt (neg : Bool) (m : Nat) : Int := if neg then -(m : Int) else (m : Int)

/-- `num(w) * 2^1074` (R8). -/
def scaledNum (w : W64) : Int :=
  signedInt (signBit w) (magnitude w)

/-- `num(a) < num(b)`, for words that are no NaN (infinities included). -/
def numLt (a b : W64) : Bool := decide (scaledNum a < scaledNum b)

/-- `toInt(w)` (R9, its exact form): the integer a word stands for, if any. -/
def toInt (w : W64) : Option Int :=
  if isZero w then some 0
  else if 1075 ≤ expField w ∧ expField w ≤ 2046 then
    some (signedInt (signBit w) ((2 ^ 52 + fracField w) * 2 ^ (expField w - 1075)))
  else if 1023 ≤ expField w ∧ expField w ≤ 1074 ∧ fracField w % 2 ^ (1075 - expField w) = 0 then
    some (signedInt (signBit w) ((2 ^ 52 + fracField w) / 2 ^ (1075 - expField w)))
  else none

/-- `floor(log2(n / d))` for positive `n`, `d`. -/
def floorLog2 (n d : Nat) : Int :=
  let l : Int := (Nat.log2 n : Int) - (Nat.log2 d : Int)
  if d * 2 ^ l.toNat ≤ n * 2 ^ (-l).toNat then l else l - 1

/-- `n / d` rounded to the nearest integer, ties to the even one (R10). -/
def divHalfEven (n d : Nat) : Nat :=
  let q := n / d
  let r := n % d
  if 2 * r < d then q else if d < 2 * r then q + 1 else q + q % 2

/-- The exponent of the unit in the last place of the binary64 numbers around `n / d`: 52 below the
leading bit, and never below -1074 (subnormals, R8). -/
def ulpExp (n d : Nat) : Int := max (floorLog2 n d) (-1022) - 52

/-- Bits 62:0 of the binary64 number nearest to `n / d`, ties to the even fraction, for `d > 0` (R10):
the significand in units of the last place, added to the exponent field one below, so that a carry out
of the significand is the step to the next exponent; from `2^1024 - 2^970` on it is the infinity. -/
def roundMag (n d : Nat) : Nat :=
  if n = 0 then 0
  else
    let x := ulpExp n d
    let k := divHalfEven (n * 2 ^ (-x).toNat) (d * 2 ^ x.toNat)
    min ((x + 1074).toNat * 2 ^ 52 + k) (2047 * 2 ^ 52)

/-- The word with sign `neg` and bits 62:0 equal to `m`. -/
def ofSignMag (neg : Bool) (m : Nat) : W64 := BitVec.ofNat 64 ((if neg then 2 ^ 63 else 0) + m)

/-- `rnd` (R10) of the real of size `n / d` and sign `neg`; a zero result takes that sign too, as R111 says
of products and quotients. -/
def rnd (neg : Bool) (n d : Nat) : W64 := ofSignMag neg (roundMag n d)

/-- `rnd` (R10) of the real `n / d`; a zero result is `+0`. -/
def rndInt (n : Int) (d : Nat) : W64 :=
  let m := roundMag n.natAbs d
  ofSignMag (decide (n < 0) && m != 0) m

/-- `ofInt(n)` (R10). -/
def ofInt (n : Int) : W64 := rndInt n 1

end Sys2Proof.Machine
end

