-- ==== Sys2Proof/Syntax.lean ====
section
/-! DEFINITION. The instructions (spec/30_encoding.md R84, R94), one constructor per row of the opcode
table, and the operands they carry. -/

namespace Sys2Proof

/-- The eight operand registers `OPR` (R7, R20, R23): the General Purpose and Stack registers. -/
inductive Reg where
  | rax | rbx | rcx | rdx | rpx | rvx | rsp | rbp
  deriving DecidableEq, Repr

/-- What a Register parameter holds (R7): the integer that names a register, or `none` where the field
holds no integer (`toInt` undefined, R87). Which numbers name a register is checked when the
instruction runs (R90); the well-formed ones are those of WellFormed.lean. -/
abbrev RegNum := Option Int

/-- The Type selector (R88): 0 is relative, every other value absolute. -/
inductive AddrType where
  | relative | absolute
  deriving DecidableEq, Repr

/-- RET's optional operand (R92): absent, or the register that holds the count. -/
inductive RetCount where
  | noOperand
  | inReg (n : RegNum)
  deriving DecidableEq, Repr

/-- The 68 instructions, in the order of the opcode table (R94). `inp` is IN and `outp` is OUT. -/
inductive Instr where
  -- Math
  | add (dst : RegNum) (src : RegNum)
  | sub (dst : RegNum) (src : RegNum)
  | mul (dst : RegNum) (src : RegNum)
  | div (dst : RegNum) (src : RegNum)
  | idiv (dst : RegNum) (src : RegNum)
  | mod (dst : RegNum) (src : RegNum)
  | exp (dst : RegNum) (src : RegNum)
  | expe (dst : RegNum)
  | log (dst : RegNum)
  | logn (dst : RegNum)
  | sqrt (dst : RegNum)
  | max (dst : RegNum) (src : RegNum)
  | min (dst : RegNum) (src : RegNum)
  | flr (dst : RegNum)
  | ceil (dst : RegNum)
  | abs (dst : RegNum)
  | sin (dst : RegNum)
  | cos (dst : RegNum)
  | tan (dst : RegNum)
  | asin (dst : RegNum)
  | acos (dst : RegNum)
  | atan (dst : RegNum)
  | rand (dst : RegNum)
  | inc (dst : RegNum)
  | dec (dst : RegNum)
  | cmp (v1 : RegNum) (v2 : RegNum)
  -- Bitwise
  | and (dst : RegNum) (src : RegNum)
  | or (dst : RegNum) (src : RegNum)
  | xor (dst : RegNum) (src : RegNum)
  | not (dst : RegNum)
  | shl (dst : RegNum) (src : RegNum)
  | shr (dst : RegNum) (src : RegNum)
  | test (v1 : RegNum) (v2 : RegNum)
  -- ControFlow (the source's spelling)
  | call (ty : AddrType) (target : RegNum)
  | ret (count : RetCount)
  | hlt
  | iret
  | jmp (ty : AddrType) (target : RegNum)
  | jp (ty : AddrType) (target : RegNum)
  | jnp (ty : AddrType) (target : RegNum)
  | jz (ty : AddrType) (target : RegNum)
  | jnz (ty : AddrType) (target : RegNum)
  | js (ty : AddrType) (target : RegNum)
  | jns (ty : AddrType) (target : RegNum)
  | jl (ty : AddrType) (target : RegNum)
  | jle (ty : AddrType) (target : RegNum)
  | jg (ty : AddrType) (target : RegNum)
  | jge (ty : AddrType) (target : RegNum)
  | loop (ty : AddrType) (target : RegNum)
  -- Stack
  | push (src : RegNum)
  | pushf
  | pop (dst : RegNum)
  | popf
  -- Data
  | mov (dst : RegNum) (src : RegNum)
  | swp (r1 : RegNum) (r2 : RegNum)
  | load (ty : AddrType) (dst : RegNum)
  | strr (addr : RegNum) (src : RegNum)
  | stra (addr : RegNum) (src : RegNum)
  | ldi (dst : RegNum) (imm : W64)
  | rip (dst : RegNum)
  -- Interrupt
  | setisrr (v : BitVec 16) (addr : RegNum)
  | setisra (v : BitVec 16) (addr : RegNum)
  | int (vec : RegNum)
  -- Other
  | nop
  -- IO
  | inp (dst : RegNum) (port : RegNum)
  | outp (src : RegNum) (port : RegNum)
  | inr (dst : RegNum) (port : RegNum)
  | outr (dst : RegNum) (port : RegNum)
  deriving DecidableEq, Repr

end Sys2Proof
end

