-- ==== Sys2Proof/WellFormed.lean ====
section
/-! DEFINITION. Which instructions are well formed: those whose operands the encoding admits as valid
(spec/30_encoding.md R86, R87, R89). The others decode and run too: they raise or fault as the spec says. -/

namespace Sys2Proof

/-- The register numbers a Register parameter may hold (R23): `OPR`. -/
def validRegNums : List Int := [0, 1, 2, 3, 4, 5, 8, 9]

/-- A Register parameter is well formed when it names an operand register (R86, R87). -/
def RegNum.wellFormed (r : RegNum) : Bool :=
  match r with
  | some n => validRegNums.contains n
  | none => false

/-- RET's operand: absent, or a valid register number (R86, R92). -/
def RetCount.wellFormed (c : RetCount) : Bool :=
  match c with
  | .noOperand => true
  | .inReg r => RegNum.wellFormed r

/-- A vector parameter names an IVT entry when it is at most 511 (R89). -/
def vectorWellFormed (v : BitVec 16) : Bool := decide (v.toNat ≤ 511)

/-- Every operand of the instruction is valid. -/
def Instr.wellFormed (i : Instr) : Bool :=
  match i with
  | .add dst src => RegNum.wellFormed dst && RegNum.wellFormed src
  | .sub dst src => RegNum.wellFormed dst && RegNum.wellFormed src
  | .mul dst src => RegNum.wellFormed dst && RegNum.wellFormed src
  | .div dst src => RegNum.wellFormed dst && RegNum.wellFormed src
  | .idiv dst src => RegNum.wellFormed dst && RegNum.wellFormed src
  | .mod dst src => RegNum.wellFormed dst && RegNum.wellFormed src
  | .exp dst src => RegNum.wellFormed dst && RegNum.wellFormed src
  | .expe dst => RegNum.wellFormed dst
  | .log dst => RegNum.wellFormed dst
  | .logn dst => RegNum.wellFormed dst
  | .sqrt dst => RegNum.wellFormed dst
  | .max dst src => RegNum.wellFormed dst && RegNum.wellFormed src
  | .min dst src => RegNum.wellFormed dst && RegNum.wellFormed src
  | .flr dst => RegNum.wellFormed dst
  | .ceil dst => RegNum.wellFormed dst
  | .abs dst => RegNum.wellFormed dst
  | .sin dst => RegNum.wellFormed dst
  | .cos dst => RegNum.wellFormed dst
  | .tan dst => RegNum.wellFormed dst
  | .asin dst => RegNum.wellFormed dst
  | .acos dst => RegNum.wellFormed dst
  | .atan dst => RegNum.wellFormed dst
  | .rand dst => RegNum.wellFormed dst
  | .inc dst => RegNum.wellFormed dst
  | .dec dst => RegNum.wellFormed dst
  | .cmp v1 v2 => RegNum.wellFormed v1 && RegNum.wellFormed v2
  | .and dst src => RegNum.wellFormed dst && RegNum.wellFormed src
  | .or dst src => RegNum.wellFormed dst && RegNum.wellFormed src
  | .xor dst src => RegNum.wellFormed dst && RegNum.wellFormed src
  | .not dst => RegNum.wellFormed dst
  | .shl dst src => RegNum.wellFormed dst && RegNum.wellFormed src
  | .shr dst src => RegNum.wellFormed dst && RegNum.wellFormed src
  | .test v1 v2 => RegNum.wellFormed v1 && RegNum.wellFormed v2
  | .call _ target => RegNum.wellFormed target
  | .ret count => RetCount.wellFormed count
  | .hlt => true
  | .iret => true
  | .jmp _ target => RegNum.wellFormed target
  | .jp _ target => RegNum.wellFormed target
  | .jnp _ target => RegNum.wellFormed target
  | .jz _ target => RegNum.wellFormed target
  | .jnz _ target => RegNum.wellFormed target
  | .js _ target => RegNum.wellFormed target
  | .jns _ target => RegNum.wellFormed target
  | .jl _ target => RegNum.wellFormed target
  | .jle _ target => RegNum.wellFormed target
  | .jg _ target => RegNum.wellFormed target
  | .jge _ target => RegNum.wellFormed target
  | .loop _ target => RegNum.wellFormed target
  | .push src => RegNum.wellFormed src
  | .pushf => true
  | .pop dst => RegNum.wellFormed dst
  | .popf => true
  | .mov dst src => RegNum.wellFormed dst && RegNum.wellFormed src
  | .swp r1 r2 => RegNum.wellFormed r1 && RegNum.wellFormed r2
  | .load _ dst => RegNum.wellFormed dst
  | .strr addr src => RegNum.wellFormed addr && RegNum.wellFormed src
  | .stra addr src => RegNum.wellFormed addr && RegNum.wellFormed src
  | .ldi dst _ => RegNum.wellFormed dst
  | .rip dst => RegNum.wellFormed dst
  | .setisrr v addr => vectorWellFormed v && RegNum.wellFormed addr
  | .setisra v addr => vectorWellFormed v && RegNum.wellFormed addr
  | .int vec => RegNum.wellFormed vec
  | .nop => true
  | .inp dst port => RegNum.wellFormed dst && RegNum.wellFormed port
  | .outp src port => RegNum.wellFormed src && RegNum.wellFormed port
  | .inr dst port => RegNum.wellFormed dst && RegNum.wellFormed port
  | .outr dst port => RegNum.wellFormed dst && RegNum.wellFormed port

end Sys2Proof
end

