-- ==== Sys2Proof/Decode.lean ====
section
/-! DEFINITION. The decoder, total on every 128-bit word, and the encoder (spec/30_encoding.md R81 to R95,
R99). -/

namespace Sys2Proof

open Machine

/-! ## Fields (R81, R82) -/

/-- Bits 7:0. -/
def opcodeField (w : W128) : BitVec 8 := w.extractLsb' 0 8

/-- Bits 23:8, the First value. -/
def firstField (w : W128) : BitVec 16 := w.extractLsb' 8 16

/-- Bits 127:64, the Second value. -/
def secondField (w : W128) : W64 := w.extractLsb' 64 64

/-- The word with these fields; the reserved bits 63:24 are 0, as an assembler writes them (R82, R93). -/
def assemble (op : BitVec 8) (first : BitVec 16) (second : W64) : W128 :=
  second ++ (0#40 ++ (first ++ op))

/-! ## Operands -/

/-- A Register parameter in the First value (R86). -/
def regInFirst (first : BitVec 16) : RegNum := some (first.toNat : Int)

/-- A Register parameter in the Second value (R87). -/
def regInSecond (second : W64) : RegNum := toInt second

/-- The Type selector (R88). -/
def typeInFirst (first : BitVec 16) : AddrType := if first = 0#16 then .relative else .absolute

/-- `RET_NOARG_FIRST` (R92, D13). -/
def retNoArgFirst : BitVec 16 := 0xFFFF#16

/-- RET's operand (R92). -/
def retInFirst (first : BitVec 16) : RetCount :=
  if first = retNoArgFirst then .noOperand else .inReg (regInFirst first)

/-! ## Decoding -/

/-- Why a word is no instruction. -/
inductive DecodeError where
  /-- R95: the opcode is 68 to 255; the step raises InvalidOpcode. -/
  | invalidOpcode (op : BitVec 8)
  deriving DecidableEq, Repr

/-- The opcode map (R94): the instruction of an opcode with these two values, if the opcode is one. The
fields a format does not use, and the reserved bits, are ignored (R93, log 16). -/
def decodeFields (op : Nat) (first : BitVec 16) (second : W64) : Option Instr :=
  match op with
  | 0 => some (.add (regInFirst first) (regInSecond second))
  | 1 => some (.sub (regInFirst first) (regInSecond second))
  | 2 => some (.mul (regInFirst first) (regInSecond second))
  | 3 => some (.div (regInFirst first) (regInSecond second))
  | 4 => some (.idiv (regInFirst first) (regInSecond second))
  | 5 => some (.mod (regInFirst first) (regInSecond second))
  | 6 => some (.exp (regInFirst first) (regInSecond second))
  | 7 => some (.expe (regInFirst first))
  | 8 => some (.log (regInFirst first))
  | 9 => some (.logn (regInFirst first))
  | 10 => some (.sqrt (regInFirst first))
  | 11 => some (.max (regInFirst first) (regInSecond second))
  | 12 => some (.min (regInFirst first) (regInSecond second))
  | 13 => some (.flr (regInFirst first))
  | 14 => some (.ceil (regInFirst first))
  | 15 => some (.abs (regInFirst first))
  | 16 => some (.sin (regInFirst first))
  | 17 => some (.cos (regInFirst first))
  | 18 => some (.tan (regInFirst first))
  | 19 => some (.asin (regInFirst first))
  | 20 => some (.acos (regInFirst first))
  | 21 => some (.atan (regInFirst first))
  | 22 => some (.rand (regInFirst first))
  | 23 => some (.inc (regInFirst first))
  | 24 => some (.dec (regInFirst first))
  | 25 => some (.cmp (regInFirst first) (regInSecond second))
  | 26 => some (.and (regInFirst first) (regInSecond second))
  | 27 => some (.or (regInFirst first) (regInSecond second))
  | 28 => some (.xor (regInFirst first) (regInSecond second))
  | 29 => some (.not (regInFirst first))
  | 30 => some (.shl (regInFirst first) (regInSecond second))
  | 31 => some (.shr (regInFirst first) (regInSecond second))
  | 32 => some (.test (regInFirst first) (regInSecond second))
  | 33 => some (.call (typeInFirst first) (regInSecond second))
  | 34 => some (.ret (retInFirst first))
  | 35 => some .hlt
  | 36 => some .iret
  | 37 => some (.jmp (typeInFirst first) (regInSecond second))
  | 38 => some (.jp (typeInFirst first) (regInSecond second))
  | 39 => some (.jnp (typeInFirst first) (regInSecond second))
  | 40 => some (.jz (typeInFirst first) (regInSecond second))
  | 41 => some (.jnz (typeInFirst first) (regInSecond second))
  | 42 => some (.js (typeInFirst first) (regInSecond second))
  | 43 => some (.jns (typeInFirst first) (regInSecond second))
  | 44 => some (.jl (typeInFirst first) (regInSecond second))
  | 45 => some (.jle (typeInFirst first) (regInSecond second))
  | 46 => some (.jg (typeInFirst first) (regInSecond second))
  | 47 => some (.jge (typeInFirst first) (regInSecond second))
  | 48 => some (.loop (typeInFirst first) (regInSecond second))
  | 49 => some (.push (regInFirst first))
  | 50 => some .pushf
  | 51 => some (.pop (regInFirst first))
  | 52 => some .popf
  | 53 => some (.mov (regInFirst first) (regInSecond second))
  | 54 => some (.swp (regInFirst first) (regInSecond second))
  | 55 => some (.load (typeInFirst first) (regInSecond second))
  | 56 => some (.strr (regInFirst first) (regInSecond second))
  | 57 => some (.stra (regInFirst first) (regInSecond second))
  | 58 => some (.ldi (regInFirst first) second)
  | 59 => some (.rip (regInFirst first))
  | 60 => some (.setisrr first (regInSecond second))
  | 61 => some (.setisra first (regInSecond second))
  | 62 => some (.int (regInFirst first))
  | 63 => some .nop
  | 64 => some (.inp (regInFirst first) (regInSecond second))
  | 65 => some (.outp (regInFirst first) (regInSecond second))
  | 66 => some (.inr (regInFirst first) (regInSecond second))
  | 67 => some (.outr (regInFirst first) (regInSecond second))
  | _ => none

/-- The instruction a word stands for (R94, R95). -/
def decode (w : W128) : Except DecodeError Instr :=
  match decodeFields (opcodeField w).toNat (firstField w) (secondField w) with
  | some i => .ok i
  | none => .error (.invalidOpcode (opcodeField w))

/-! ## Encoding -/

/-- A valid register number as a First value (R86). -/
def firstOfReg (r : RegNum) : BitVec 16 := BitVec.ofInt 16 (r.getD 0)

/-- A valid register number as a Second value: the binary64 number equal to it (R87). -/
def secondOfReg (r : RegNum) : W64 := ofInt (r.getD 0)

/-- The Type selector as an assembler writes it (R88). -/
def firstOfType (ty : AddrType) : BitVec 16 :=
  match ty with
  | .relative => 0#16
  | .absolute => 1#16

/-- RET's operand as a First value (R92). -/
def firstOfRet (c : RetCount) : BitVec 16 :=
  match c with
  | .noOperand => retNoArgFirst
  | .inReg r => firstOfReg r

/-- The three fields an assembler writes (R84, R97); a field the format does not use is 0. -/
structure Fields where
  op : BitVec 8
  first : BitVec 16
  second : W64
  deriving DecidableEq, Repr

/-- The fields of an instruction, from the opcode map and the formats (R84, R94). -/
def fieldsOf (i : Instr) : Fields :=
  match i with
  | .add dst src => ⟨0, firstOfReg dst, secondOfReg src⟩
  | .sub dst src => ⟨1, firstOfReg dst, secondOfReg src⟩
  | .mul dst src => ⟨2, firstOfReg dst, secondOfReg src⟩
  | .div dst src => ⟨3, firstOfReg dst, secondOfReg src⟩
  | .idiv dst src => ⟨4, firstOfReg dst, secondOfReg src⟩
  | .mod dst src => ⟨5, firstOfReg dst, secondOfReg src⟩
  | .exp dst src => ⟨6, firstOfReg dst, secondOfReg src⟩
  | .expe dst => ⟨7, firstOfReg dst, 0⟩
  | .log dst => ⟨8, firstOfReg dst, 0⟩
  | .logn dst => ⟨9, firstOfReg dst, 0⟩
  | .sqrt dst => ⟨10, firstOfReg dst, 0⟩
  | .max dst src => ⟨11, firstOfReg dst, secondOfReg src⟩
  | .min dst src => ⟨12, firstOfReg dst, secondOfReg src⟩
  | .flr dst => ⟨13, firstOfReg dst, 0⟩
  | .ceil dst => ⟨14, firstOfReg dst, 0⟩
  | .abs dst => ⟨15, firstOfReg dst, 0⟩
  | .sin dst => ⟨16, firstOfReg dst, 0⟩
  | .cos dst => ⟨17, firstOfReg dst, 0⟩
  | .tan dst => ⟨18, firstOfReg dst, 0⟩
  | .asin dst => ⟨19, firstOfReg dst, 0⟩
  | .acos dst => ⟨20, firstOfReg dst, 0⟩
  | .atan dst => ⟨21, firstOfReg dst, 0⟩
  | .rand dst => ⟨22, firstOfReg dst, 0⟩
  | .inc dst => ⟨23, firstOfReg dst, 0⟩
  | .dec dst => ⟨24, firstOfReg dst, 0⟩
  | .cmp v1 v2 => ⟨25, firstOfReg v1, secondOfReg v2⟩
  | .and dst src => ⟨26, firstOfReg dst, secondOfReg src⟩
  | .or dst src => ⟨27, firstOfReg dst, secondOfReg src⟩
  | .xor dst src => ⟨28, firstOfReg dst, secondOfReg src⟩
  | .not dst => ⟨29, firstOfReg dst, 0⟩
  | .shl dst src => ⟨30, firstOfReg dst, secondOfReg src⟩
  | .shr dst src => ⟨31, firstOfReg dst, secondOfReg src⟩
  | .test v1 v2 => ⟨32, firstOfReg v1, secondOfReg v2⟩
  | .call ty target => ⟨33, firstOfType ty, secondOfReg target⟩
  | .ret count => ⟨34, firstOfRet count, 0⟩
  | .hlt => ⟨35, 0, 0⟩
  | .iret => ⟨36, 0, 0⟩
  | .jmp ty target => ⟨37, firstOfType ty, secondOfReg target⟩
  | .jp ty target => ⟨38, firstOfType ty, secondOfReg target⟩
  | .jnp ty target => ⟨39, firstOfType ty, secondOfReg target⟩
  | .jz ty target => ⟨40, firstOfType ty, secondOfReg target⟩
  | .jnz ty target => ⟨41, firstOfType ty, secondOfReg target⟩
  | .js ty target => ⟨42, firstOfType ty, secondOfReg target⟩
  | .jns ty target => ⟨43, firstOfType ty, secondOfReg target⟩
  | .jl ty target => ⟨44, firstOfType ty, secondOfReg target⟩
  | .jle ty target => ⟨45, firstOfType ty, secondOfReg target⟩
  | .jg ty target => ⟨46, firstOfType ty, secondOfReg target⟩
  | .jge ty target => ⟨47, firstOfType ty, secondOfReg target⟩
  | .loop ty target => ⟨48, firstOfType ty, secondOfReg target⟩
  | .push src => ⟨49, firstOfReg src, 0⟩
  | .pushf => ⟨50, 0, 0⟩
  | .pop dst => ⟨51, firstOfReg dst, 0⟩
  | .popf => ⟨52, 0, 0⟩
  | .mov dst src => ⟨53, firstOfReg dst, secondOfReg src⟩
  | .swp r1 r2 => ⟨54, firstOfReg r1, secondOfReg r2⟩
  | .load ty dst => ⟨55, firstOfType ty, secondOfReg dst⟩
  | .strr addr src => ⟨56, firstOfReg addr, secondOfReg src⟩
  | .stra addr src => ⟨57, firstOfReg addr, secondOfReg src⟩
  | .ldi dst imm => ⟨58, firstOfReg dst, imm⟩
  | .rip dst => ⟨59, firstOfReg dst, 0⟩
  | .setisrr v addr => ⟨60, v, secondOfReg addr⟩
  | .setisra v addr => ⟨61, v, secondOfReg addr⟩
  | .int vec => ⟨62, firstOfReg vec, 0⟩
  | .nop => ⟨63, 0, 0⟩
  | .inp dst port => ⟨64, firstOfReg dst, secondOfReg port⟩
  | .outp src port => ⟨65, firstOfReg src, secondOfReg port⟩
  | .inr dst port => ⟨66, firstOfReg dst, secondOfReg port⟩
  | .outr dst port => ⟨67, firstOfReg dst, secondOfReg port⟩

/-- The word of a well-formed instruction (R82, R84, R85). -/
def encode (i : Instr) : W128 := assemble (fieldsOf i).op (fieldsOf i).first (fieldsOf i).second

/-! ## In memory -/

/-- The cell at the instruction's own address: the lower half (R53). -/
def lowCell (w : W128) : W64 := w.extractLsb' 0 64

/-- The cell after it: the upper half (R53). -/
def highCell (w : W128) : W64 := w.extractLsb' 64 64

/-- The word of two cells (R53). -/
def ofCells (lo hi : W64) : W128 := hi ++ lo

/-- The instruction word whose bits are the low `nbits` bits of `w`, every bit above 0. -/
def tableWord (nbits w : Nat) : W128 := BitVec.ofNat 128 (w % 2 ^ nbits)

/-- The instruction the decoder reads from the two cells of such a word. -/
def decodeTableWord (nbits w : Nat) : Option Instr :=
  match decode (ofCells (lowCell (tableWord nbits w)) (highCell (tableWord nbits w))) with
  | .ok i => some i
  | .error _ => none

end Sys2Proof
end

