-- ==== Sys2Proof/Machine/Turn.lean ====
section
/-! DEFINITION. The agents' moves (spec/00_scope.md R12): a turn says which agent moves, and what it does when
it is not the core (spec/47_io.md R236, spec/60_exceptions.md R260). -/

namespace Sys2Proof.Machine

/-- Whose move it is, and what an agent outside the core does with it (R12, R236, R260). -/
inductive Turn where
  /-- The core takes one step (R12). -/
  | core
  /-- IRQ line `k` adds one occurrence of vector `64 + k` to `pending` (R260). -/
  | irq (line : Fin 64)
  /-- The device of port `p` writes `w` to `in_data[p]` and sets `in_ready[p]` (R236). -/
  | deliver (p : Fin 128) (w : W64)
  /-- The device of port `p` takes `out_data[p]` and clears `out_ready[p]` (R236). -/
  | take (p : Fin 128)
  /-- The device of port `p` sets `out_ready[p]` (R236). -/
  | readyOut (p : Fin 128)
  /-- The device of port `p` withdraws its data: clears `in_ready[p]` (R236). -/
  | withdraw (p : Fin 128)
  deriving DecidableEq, Repr, Inhabited

end Sys2Proof.Machine
end

