-- ==== Sys2Proof/Config.lean ====
section
/-! DEFINITION. What is fixed for a machine (spec/00_scope.md R4) and the FREE VALUES: constants without a
body, of which nothing can be proved but what holds of every value (assumption log 7 to 11). -/

namespace Sys2Proof.Config

/-- `N_VECTORS`: the interrupt vector table has entries 0 to 511 (R4, R30). -/
def nVectors : Nat := 512

/-- `N_IRQ`: the IRQ lines 0 to 63 (R4, R260). -/
def nIrq : Nat := 64

/-- Line `k` raises vector `64 + k` (R260, D20). -/
def irqBase : Nat := 64

/-- `N_PORTS`: the IO ports 0 to 127 (R4, R35). -/
def nPorts : Nat := 128

/-- The largest `MEM_SIZE` (R4, R50): every address is an exact binary64 integer. -/
def maxMemSize : Nat := 2 ^ 53

/-- `MEM_SIZE` of the reset state. The spec leaves it OPEN; 256 is the setting of spec/95_test_vectors.md
section 0. DESIGN CHOICE (log 2), unsafe for a claim about the reset state alone. -/
def resetMemSize : Nat := 256

/-- `RESET_RIP`, OPEN with default 0 (R4, R37). DESIGN CHOICE (log 3), unsafe. -/
def resetRip : Int := 0

/-- The value of every word the spec leaves unspecified after reset (R37).
DESIGN CHOICE (log 1), unsafe: the spec states no value. -/
def resetWord : W64 := 0

/-! The OPEN functions of `N` (R11, R114, D31): total, functions of their operand words alone, nothing
else known of them. DESIGN CHOICE (log 8), safe. -/

/-- `N.pow(a, b)`: used by EXP and EXPE (R124, R125). -/
opaque pow : W64 → W64 → W64

/-- `N.log10(a)`: used by LOG (R126). -/
opaque log10 : W64 → W64

/-- `N.ln(a)`: used by LOGN (R127). -/
opaque ln : W64 → W64

/-- `N.sin(a)`, the angle in radians (R114, R134). -/
opaque sin : W64 → W64

/-- `N.cos(a)` (R135). -/
opaque cos : W64 → W64

/-- `N.tan(a)` (R136). -/
opaque tan : W64 → W64

/-- `N.asin(a)` (R137). -/
opaque asin : W64 → W64

/-- `N.acos(a)` (R138). -/
opaque acos : W64 → W64

/-- `N.atan(a)` (R139). -/
opaque atan : W64 → W64

/-- The word behind the `k`-th draw: which NaN an instruction produces (R116) and what RAND draws
(R115). Machine/Numerics.lean holds it inside the set the spec gives. Safe (logs 7, 9). -/
opaque freeWord : Nat → W64

/-- `IRQ_SELECT` (R262): which element of the bag `pending` the `k`-th draw takes; reduced modulo the
bag's size where it is used. Safe (log 10). -/
opaque irqSelect : Nat → List Nat → Nat

/-- Who makes the `k`-th move of those no list names (R12, R236, R260): an endless order of moves of which
nothing is known, so that every interleaving of the agents is one of its values, and none must ever act.
Safe (log 11). -/
opaque schedule : Nat → Machine.Turn

end Sys2Proof.Config
end

