-- ==== Sys2Proof/Machine/Numerics.lean ====
section
/-! DEFINITION. The numerics record `N` (spec/00_scope.md R11; spec/40_math.md R111 to R116;
spec/41_bitwise.md R150): what each Math and Bitwise instruction computes, as functions of words. -/

namespace Sys2Proof.Machine

/-- A result of `N`: a word, or some NaN of which nothing else is known (R116). -/
inductive NumResult where
  | word (w : W64)
  | nan
  deriving DecidableEq, Repr

/-- `ONE`, 1.0 (R11). -/
def oneWord : W64 := 0x3FF0000000000000#64

/-- `E`, the binary64 number nearest to Euler's number (R11). -/
def eulerWord : W64 := 0x4005BF0A8B145769#64

/-- `+0` (R8). -/
def posZero : W64 := 0#64

/-- `-0` (R8). -/
def negZero : W64 := 0x8000000000000000#64

/-- `-1.0`. -/
def minusOne : W64 := 0xBFF0000000000000#64

/-- The infinity of the sign `neg`. -/
def infWord (neg : Bool) : W64 := ofSignMag neg (2047 * 2 ^ 52)

/-- The zero of the sign `neg`. -/
def zeroWord (neg : Bool) : W64 := ofSignMag neg 0

/-- `a` with its sign bit flipped (R111). -/
def negate (a : W64) : W64 := a ^^^ negZero

/-- A NaN word made of the free word `free`: `free` itself when it is a NaN, so that every NaN pattern is
possible and nothing else is (R116). -/
def nanWord (free : W64) : W64 := if isNaN free then free else 0x7FF8000000000000#64

/-- `N.add(a, b)` (R111). -/
def numAdd (a b : W64) : NumResult :=
  if isNaN a || isNaN b then .nan
  else if isInf a then (if isInf b && signBit a != signBit b then .nan else .word a)
  else if isInf b then .word b
  else if isZero a && isZero b && signBit a && signBit b then .word negZero
  else .word (rndInt (scaledNum a + scaledNum b) scale)

/-- `N.sub(a, b)` (R111). -/
def numSub (a b : W64) : NumResult := numAdd a (negate b)

/-- `N.mul(a, b)` (R111): the sign of the result is the exclusive-or of the operands' signs. -/
def numMul (a b : W64) : NumResult :=
  if isNaN a || isNaN b then .nan
  else if isInf a || isInf b then
    (if isZero a || isZero b then .nan else .word (infWord (signBit a != signBit b)))
  else .word (rnd (signBit a != signBit b) (magnitude a * magnitude b) (scale * scale))

/-- `N.div(a, b)` for a `b` that is no zero (R111, R117). -/
def numDiv (a b : W64) : NumResult :=
  if isNaN a || isNaN b then .nan
  else if isInf a then (if isInf b then .nan else .word (infWord (signBit a != signBit b)))
  else if isInf b then .word (zeroWord (signBit a != signBit b))
  else .word (rnd (signBit a != signBit b) (magnitude a) (magnitude b))

/-- `N.floordiv(a, b)` for a `b` that is no zero (R112): the floor of the exact quotient. -/
def numFloorDiv (a b : W64) : NumResult :=
  if isNaN a || isNaN b || isInf a then .nan
  else if isInf b then
    .word (if isZero a || signBit a == signBit b then posZero else minusOne)
  else .word (ofInt ((scaledNum a).fdiv (scaledNum b)))

/-- `N.mod(a, b)` for a `b` that is no zero (R112): the remainder of the floored quotient, rounded once.
A zero result is `+0`, also for `-0` by an infinity (log 13). -/
def numMod (a b : W64) : NumResult :=
  if isNaN a || isNaN b || isInf a then .nan
  else if isInf b then
    .word (if isZero a then posZero else if signBit a == signBit b then a else b)
  else .word (rndInt ((scaledNum a).fmod (scaledNum b)) scale)

/-- `N.max(a, b)` (R113). -/
def numMax (a b : W64) : NumResult := .word (if !isNaN a && !isNaN b && numLt a b then b else a)

/-- `N.min(a, b)` (R113). -/
def numMin (a b : W64) : NumResult := .word (if !isNaN a && !isNaN b && numLt b a then b else a)

/-- `N.floor(a)` (R113). -/
def numFloor (a : W64) : NumResult :=
  .word (if isNaN a || isInf a || isZero a then a else ofInt ((scaledNum a).fdiv scale))

/-- `N.ceil(a)` (R113): a zero result takes `a`'s sign. -/
def numCeil (a : W64) : NumResult :=
  .word (if isNaN a || isInf a || isZero a then a
    else if -((-(scaledNum a)).fdiv scale) = 0 then zeroWord (signBit a)
    else ofInt (-((-(scaledNum a)).fdiv scale)))

/-- `N.abs(a)` (R113): bit 63 cleared, of a NaN too. -/
def numAbs (a : W64) : NumResult := .word (a &&& 0x7FFFFFFFFFFFFFFF#64)

/-- The integer square root of `n` when it is below `2^fuel`: the bits of the root from bit `fuel - 1`
down, each kept when the square does not exceed `n`; `root` holds the bits found so far. -/
def isqrtFrom (fuel n root : Nat) : Nat :=
  match fuel with
  | 0 => root
  | k + 1 =>
    if (root + 2 ^ k) * (root + 2 ^ k) ≤ n then isqrtFrom k n (root + 2 ^ k) else isqrtFrom k n root

/-- The square root of a positive finite word, rounded once (R111): the value is
`m * 2^(2h - 1074)`, so its root is `sqrt(m * 2^128) * 2^(h - 537 - 64)`; the root is cut to an integer
and, when it is not exact, a half is added, which lies on the same side of every rounding boundary. -/
def sqrtPositive (a : W64) : W64 :=
  let sig := if expField a = 0 then fracField a else 2 ^ 52 + fracField a
  let x := expField a - 1
  let m := if x % 2 = 0 then sig else 2 * sig
  let h := x / 2
  let n := m * 2 ^ 128
  let r := isqrtFrom 92 n 0
  let half := if r * r = n then 0 else 1
  rnd false ((2 * r + half) * 2 ^ h) (2 ^ 602)

/-- `N.sqrt(a)` (R111). -/
def numSqrt (a : W64) : NumResult :=
  if isNaN a then .nan
  else if isZero a then .word a
  else if signBit a then .nan
  else if isInf a then .word a
  else .word (sqrtPositive a)

/-- Whether a word lies in `S(a)`, for an `a` that is no NaN (R115): no NaN, between 0 and `a`, both ends
included. -/
def inRandRange (a w : W64) : Bool :=
  !isNaN w && decide (min 0 (scaledNum a) ≤ scaledNum w) && decide (scaledNum w ≤ max 0 (scaledNum a))

/-- `N.rand(a)` (R115) made of the free word `free`: `free` itself when it lies in `S(a)`, so that every
word of `S(a)` is possible and nothing else is. -/
def randWord (a free : W64) : W64 :=
  if isNaN a then nanWord free
  else if inRandRange a free then free
  else posZero

/-! The Bitwise family (R150): two's complement integers without a width. -/

/-- `A AND B` on two's complement integers: a negative integer `-m - 1` is the complement of `m`. -/
def intAnd (a b : Int) : Int :=
  match a, b with
  | .ofNat m, .ofNat n => .ofNat (m &&& n)
  | .ofNat m, .negSucc n => .ofNat (m ^^^ (m &&& n))
  | .negSucc m, .ofNat n => .ofNat (n ^^^ (n &&& m))
  | .negSucc m, .negSucc n => .negSucc (m ||| n)

/-- `A OR B` on two's complement integers. -/
def intOr (a b : Int) : Int :=
  match a, b with
  | .ofNat m, .ofNat n => .ofNat (m ||| n)
  | .ofNat m, .negSucc n => .negSucc (n ^^^ (n &&& m))
  | .negSucc m, .ofNat n => .negSucc (m ^^^ (m &&& n))
  | .negSucc m, .negSucc n => .negSucc (m &&& n)

/-- `A XOR B` on two's complement integers. -/
def intXor (a b : Int) : Int :=
  match a, b with
  | .ofNat m, .ofNat n => .ofNat (m ^^^ n)
  | .ofNat m, .negSucc n => .negSucc (m ^^^ n)
  | .negSucc m, .ofNat n => .negSucc (m ^^^ n)
  | .negSucc m, .negSucc n => .ofNat (m ^^^ n)

/-- Two operands of a bitwise function as integers, or nothing when one of them is none (R150). -/
def onInts (f : Int → Int → W64) (a b : W64) : Option W64 :=
  match toInt a, toInt b with
  | some m, some n => some (f m n)
  | _, _ => none

/-- `N.band(a, b)` (R150). -/
def numAnd (a b : W64) : Option W64 := onInts (fun m n => ofInt (intAnd m n)) a b

/-- `N.bor(a, b)` (R150). -/
def numOr (a b : W64) : Option W64 := onInts (fun m n => ofInt (intOr m n)) a b

/-- `N.bxor(a, b)` (R150). -/
def numXor (a b : W64) : Option W64 := onInts (fun m n => ofInt (intXor m n)) a b

/-- `N.bnot(a)` (R150). -/
def numNot (a : W64) : Option W64 := (toInt a).map fun m => ofInt (-m - 1)

/-- `ofInt(m * 2^n)` for `n >= 0` (R150, R155). From 1024 on the product is zero or past every finite
binary64 number, so the power is cut there and the result is the same word. -/
def shlWord (m n : Int) : W64 := ofInt (m * 2 ^ (min n 1024).toNat)

/-- `ofInt(floor(m / 2^n))` for `n >= 0` (R150, R156). An operand is below `2^1024` in magnitude, so the
quotient no longer changes from 1024 on and the power is cut there. -/
def shrWord (m n : Int) : W64 := ofInt (m.fdiv (2 ^ (min n 1024).toNat))

/-- A shift of integers by a count that is not negative (R150). -/
def onShift (f : Int → Int → W64) (a b : W64) : Option W64 :=
  match toInt a, toInt b with
  | some m, some n => if n < 0 then none else some (f m n)
  | _, _ => none

/-- `N.shl(a, b)` (R150). -/
def numShl (a b : W64) : Option W64 := onShift shlWord a b

/-- `N.shr(a, b)` (R150). -/
def numShr (a b : W64) : Option W64 := onShift shrWord a b

end Sys2Proof.Machine
end

