-- ==== Sys2Proof/Machine/Sparse.lean ====
section
/-! DEFINITION. Maps from addresses to values as lists of pairs in ONE canonical form, keys strictly
rising: memory, the vector table and the ports are held so. -/

namespace Sys2Proof.Machine

/-- A map from `Nat` keys, one entry a key, keys rising. -/
abbrev Sparse (α : Type) := List (Nat × α)

/-- The value at key `a`, if any. -/
def Sparse.lookup {α : Type} (m : Sparse α) (a : Nat) : Option α :=
  match m with
  | [] => none
  | (k, v) :: rest => if k = a then some v else Sparse.lookup rest a

/-- Key `a` holds `v` from now on. -/
def Sparse.insert {α : Type} (m : Sparse α) (a : Nat) (v : α) : Sparse α :=
  match m with
  | [] => [(a, v)]
  | (k, u) :: rest =>
    if a < k then (a, v) :: (k, u) :: rest
    else if a = k then (a, v) :: rest
    else (k, u) :: Sparse.insert rest a v

/-- Key `a` holds nothing from now on. -/
def Sparse.erase {α : Type} (m : Sparse α) (a : Nat) : Sparse α :=
  match m with
  | [] => []
  | (k, u) :: rest => if k = a then rest else (k, u) :: Sparse.erase rest a

/-- Every key is above `lo`, and the keys rise strictly. -/
def Sparse.risesFrom {α : Type} (lo : Nat) (m : Sparse α) : Bool :=
  match m with
  | [] => true
  | (k, _) :: rest => decide (lo < k) && Sparse.risesFrom k rest

/-- The canonical form: the keys rise strictly. -/
def Sparse.wf {α : Type} (m : Sparse α) : Bool :=
  match m with
  | [] => true
  | (k, _) :: rest => Sparse.risesFrom k rest

/-- Every key is below `n`. -/
def Sparse.keysBelow {α : Type} (n : Nat) (m : Sparse α) : Bool := m.all fun e => decide (e.1 < n)

end Sys2Proof.Machine
end

