-- ==== Sys2Proof/Machine/State.lean ====
section
/-! DEFINITION. The machine's state (spec/10_state.md), its reset value (R37), and the reasons a step can
stop. -/

namespace Sys2Proof.Machine

/-- The eight operand registers, numbers 0 to 5, 8 and 9 (R20, R22). -/
structure Regs where
  rax : W64
  rbx : W64
  rcx : W64
  rdx : W64
  rpx : W64
  rvx : W64
  rsp : W64
  rbp : W64
  deriving DecidableEq, Repr

/-- One IO port (R35): a data latch and a ready flag in each direction. -/
structure Port where
  inData : W64
  inReady : Bool
  outData : W64
  outReady : Bool
  deriving DecidableEq, Repr

/-- The whole state (R20 to R35). The last four fields are the model's own (log 2, 11, 14). -/
structure State where
  /-- The operand registers (R22). -/
  regs : Regs
  /-- RIP, register 6, an unbounded integer (R25). -/
  pc : Int
  /-- IR, register 7: the instruction fetched last (R26). -/
  ir : W128
  /-- RFLAGS, register 10: PF, ZF, SF in bits 0, 1, 2; bits 63:3 reserved (R27). -/
  rflags : W64
  /-- The interrupt vector table: an unlisted vector is `unset` (R30). -/
  ivt : Sparse Int
  /-- `isr_depth` (R31). -/
  isrDepth : Nat
  /-- `pending`: the bag of waiting hardware vectors, as a rising list (R31). -/
  pending : List Nat
  /-- `halted` (R32). -/
  halted : Bool
  /-- The IO ports: an unlisted port is as it is after reset (R35, R37). -/
  ports : Sparse Port
  /-- Memory: the cells that hold a known word; an unlisted cell faults when read (R50, log 4). -/
  mem : Sparse W64
  /-- `MEM_SIZE`, an OPEN parameter (R4): no step changes it. -/
  memSize : Nat
  /-- How many free values have been drawn (R115, R116, R262). -/
  draws : Nat
  /-- Whose moves are known to come next; after them `Config.schedule` says who moves (R12, log 11). -/
  turns : List Turn
  /-- How many moves `Config.schedule` has given (log 11). -/
  moves : Nat
  deriving DecidableEq, Repr

/-- Why a step stops with no next state: the spec's model faults (R7), and one of the model's own. -/
inductive Fault where
  /-- U10, R272: trap entry through an IVT entry that was never set. Raised by `trapEntry`. Safe. -/
  | unsetVector (v : Nat)
  /-- U11, R273: trap entry whose own push fails. Raised by `trapEntry`. Safe. -/
  | doubleFault (v : Nat)
  /-- U6, R150: an operand of AND, OR, XOR, NOT, SHL, SHR that is no integer, or a negative shift
  count. Raised by those six. Safe. -/
  | bitwiseOperandNotInteger
  /-- U7, R168: RET's count is no non-negative integer. Raised by RET. Safe. -/
  | retCountInvalid
  /-- U8, R195: the word POPF pops is no non-negative integer. Raised by POPF. Safe. -/
  | popfNotFlagsWord
  /-- U9, R215: a vector outside 0 to 511. Raised by SETISRR, SETISRA, INT. Safe. -/
  | vectorOutOfRange
  /-- U5, R302: a read of memory cell `a`, which nothing has written since reset. Raised by every memory
  read, the fetch included (log 4). Safe. -/
  | unwrittenCell (a : Nat)
  deriving DecidableEq, Repr

/-- Why the model gives a step no meaning. -/
inductive Refusal where
  /-- An instruction whose arm of `exec` has no meaning yet. No arm answers it: every instruction has its
  meaning. Safe. -/
  | notModelled (mnemonic : String)
  deriving DecidableEq, Repr

/-- What a step answers. -/
abbrev Out := Host.Outcome State Fault Refusal

/-- The Processor Exceptions (R250). -/
inductive Exn where
  | divideByZero | invalidOpcode | memoryOutOfBounds | invalidRegister | ioNotReady | ioInvalidPort
  deriving DecidableEq, Repr

/-- Why an instruction does not complete (R7): it raises an exception, or reaches a model fault. -/
inductive Stop where
  | raise (e : Exn)
  | fault (f : Fault)
  deriving DecidableEq, Repr

/-- A part of an instruction that may stop it (R7). -/
abbrev Act (α : Type) := Except Stop α

/-- A port after reset (R37): flags 0, data unspecified (log 1). -/
def Port.reset : Port :=
  { inData := Config.resetWord, inReady := false, outData := Config.resetWord, outReady := false }

/-- The operand registers after reset: unspecified (R37), every one at the value log 1 names. -/
def Regs.reset : Regs :=
  { rax := Config.resetWord, rbx := Config.resetWord, rcx := Config.resetWord, rdx := Config.resetWord,
    rpx := Config.resetWord, rvx := Config.resetWord, rsp := Config.resetWord, rbp := Config.resetWord }

/-- The machine right after reset (R37, R301): `pc` at `RESET_RIP`, every vector unset, no handler
running, nothing pending, not halted, every ready flag 0, no memory cell known. -/
def State.reset : State :=
  { regs := Regs.reset
    pc := Config.resetRip
    ir := 0
    rflags := 0
    ivt := []
    isrDepth := 0
    pending := []
    halted := false
    ports := []
    mem := []
    memSize := Config.resetMemSize
    draws := 0
    turns := []
    moves := 0 }

end Sys2Proof.Machine
end

