-- ==== Sys2Proof/Machine/Flags.lean ====
section
/-! DEFINITION. RFLAGS and the flag function (spec/10_state.md R27, R28; spec/43_stack.md R193, R195). -/

namespace Sys2Proof.Machine

/-- The three flags (R27). -/
structure Flags where
  pf : Bool
  zf : Bool
  sf : Bool
  deriving DecidableEq, Repr

/-- `N.flags(r)` (R28): even, zero, negative, each of the result's value. -/
def flagsOf (r : W64) : Flags :=
  { pf := isFinite r && magnitude r % (2 * scale) == 0
    zf := isZero r
    sf := !isNaN r && decide (scaledNum r < 0) }

/-- `N.flags` of a result of `N`: of any NaN, all three are 0 (R28, R143). -/
def flagsOfNum (r : NumResult) : Flags :=
  match r with
  | .word w => flagsOf w
  | .nan => { pf := false, zf := false, sf := false }

/-- The integer whose bits 0, 1, 2 are PF, ZF, SF (R193). -/
def flagsNumber (f : Flags) : Nat := f.pf.toNat + 2 * f.zf.toNat + 4 * f.sf.toNat

/-- Bits 0, 1, 2 of a natural number as PF, ZF, SF (R195). -/
def flagsOfNumber (n : Nat) : Flags :=
  { pf := n % 2 == 1, zf := n / 2 % 2 == 1, sf := n / 4 % 2 == 1 }

/-- RFLAGS with these flags: bits 63:3 are 0 whatever is written (R27, D36). -/
def packFlags (f : Flags) : W64 := BitVec.ofNat 64 (flagsNumber f)

/-- The flags in RFLAGS: bits 0, 1, 2 (R27). The reserved bits are not read. -/
def State.flags (s : State) : Flags :=
  { pf := s.rflags.getLsbD 0, zf := s.rflags.getLsbD 1, sf := s.rflags.getLsbD 2 }

/-- RFLAGS written with these flags (R27, R29). -/
def State.setFlags (s : State) (f : Flags) : State := { s with rflags := packFlags f }

end Sys2Proof.Machine
end

