-- ==== Sys2Proof/Machine/Ops.lean ====
section
/-! DEFINITION. The named operations over registers, memory, the vector table, the ports and the stack;
taking an exception and returning from one (spec/20_memory.md, spec/43_stack.md R190 R191,
spec/60_exceptions.md R266, R270, R271, R280). -/

namespace Sys2Proof.Machine

/-! ## Registers and the program counter -/

/-- The word register `r` holds (R7). -/
def State.reg (s : State) (r : Reg) : W64 :=
  match r with
  | .rax => s.regs.rax
  | .rbx => s.regs.rbx
  | .rcx => s.regs.rcx
  | .rdx => s.regs.rdx
  | .rpx => s.regs.rpx
  | .rvx => s.regs.rvx
  | .rsp => s.regs.rsp
  | .rbp => s.regs.rbp

/-- The register file with `w` in register `r`. -/
def Regs.set (g : Regs) (r : Reg) (w : W64) : Regs :=
  match r with
  | .rax => { g with rax := w }
  | .rbx => { g with rbx := w }
  | .rcx => { g with rcx := w }
  | .rdx => { g with rdx := w }
  | .rpx => { g with rpx := w }
  | .rvx => { g with rvx := w }
  | .rsp => { g with rsp := w }
  | .rbp => { g with rbp := w }

/-- `x[r] <- w` (R7). -/
def State.setReg (s : State) (r : Reg) (w : W64) : State := { s with regs := s.regs.set r w }

/-- `pc <- t` (R7). -/
def State.setPc (s : State) (t : Int) : State := { s with pc := t }

/-- `pc <- pc + 2`, the sequential case (R7, R25). -/
def State.advance (s : State) : State := { s with pc := s.pc + 2 }

/-- IR is written by a successful fetch (R26). -/
def State.setIr (s : State) (w : W128) : State := { s with ir := w }

/-- `isr_depth <- n` (R31). -/
def State.setIsrDepth (s : State) (n : Nat) : State := { s with isrDepth := n }

/-- `halted <- b` (R32). -/
def State.setHalted (s : State) (b : Bool) : State := { s with halted := b }

/-- `pending <- l` (R31). -/
def State.setPending (s : State) (l : List Nat) : State := { s with pending := l }

/-- One free value has been drawn (log 14). -/
def State.drawn (s : State) : State := { s with draws := s.draws + 1 }

/-- `x[r] <- r'` for a result of `N`: a NaN is a draw among the NaN words (R116, log 7). -/
def State.setRegNum (s : State) (r : Reg) (v : NumResult) : State :=
  match v with
  | .word w => s.setReg r w
  | .nan => (s.setReg r (nanWord (Config.freeWord s.draws))).drawn

/-! ## Memory -/

/-- The bounds check of one cell (R56). -/
def State.inBounds (s : State) (a : Int) : Bool := decide (0 ≤ a) && decide (a < (s.memSize : Int))

/-- What cell `a` holds, if anything is known of it (R50, log 4). -/
def State.cell (s : State) (a : Nat) : Option W64 := Sparse.lookup s.mem a

/-- Cell `a` holds `w` from now on (R50). -/
def State.setCell (s : State) (a : Nat) (w : W64) : State := { s with mem := Sparse.insert s.mem a w }

/-- A cell's word once its address is known to be in bounds; a cell nothing has written faults
(R302, U5, log 4). -/
def cellValue (s : State) (a : Nat) : Act W64 :=
  match s.cell a with
  | some w => .ok w
  | none => .error (.fault (.unwrittenCell a))

/-- `MemRead(a, 1)` (R7, R56). -/
def memRead (s : State) (a : Int) : Act W64 :=
  if s.inBounds a then cellValue s a.toNat else .error (.raise .memoryOutOfBounds)

/-- `MemRead(a, 2)` (R7, R53): both cells are checked before either is read; the lower cell is the lower
half. -/
def memReadInstr (s : State) (a : Int) : Act W128 :=
  if s.inBounds a && s.inBounds (a + 1) then do
    let lo ← cellValue s a.toNat
    let hi ← cellValue s (a + 1).toNat
    pure (hi ++ lo)
  else .error (.raise .memoryOutOfBounds)

/-- `MemWrite(a, 1, w)` (R7, R56). -/
def memWrite (s : State) (a : Int) (w : W64) : Act State :=
  if s.inBounds a then .ok (s.setCell a.toNat w) else .error (.raise .memoryOutOfBounds)

/-- `addr(w)` (R7, R55): a word used as an address or an offset. -/
def addrOf (w : W64) : Act Int :=
  match toInt w with
  | some n => .ok n
  | none => .error (.raise .memoryOutOfBounds)

/-! ## The stack -/

/-- `push(w)` (R190): the store comes before the change of RSP. -/
def push (s : State) (w : W64) : Act State := do
  let top ← addrOf (s.reg .rsp)
  let t ← memWrite s (top - 1) w
  pure (t.setReg .rsp (ofInt (top - 1)))

/-- The top of the stack and its address, with nothing changed yet (R191). -/
def peek (s : State) : Act (Int × W64) := do
  let top ← addrOf (s.reg .rsp)
  let w ← memRead s top
  pure (top, w)

/-- `pop()` (R191): the popped word, and the state with RSP one cell up. -/
def pop (s : State) : Act (W64 × State) := do
  let p ← peek s
  pure (p.2, s.setReg .rsp (ofInt (p.1 + 1)))

/-! ## The vector table and the ports -/

/-- `IVT[v]`, `none` for `unset` (R30). -/
def State.vector (s : State) (v : Nat) : Option Int := Sparse.lookup s.ivt v

/-- `IVT[v] <- a` (R216, R217). -/
def State.setVector (s : State) (v : Nat) (a : Int) : State := { s with ivt := Sparse.insert s.ivt v a }

/-- The state of port `p` (R35). -/
def State.port (s : State) (p : Nat) : Port := (Sparse.lookup s.ports p).getD Port.reset

/-- Port `p` has state `v` from now on; a port as after reset is not listed. -/
def State.setPort (s : State) (p : Nat) (v : Port) : State :=
  { s with ports := if v = Port.reset then Sparse.erase s.ports p else Sparse.insert s.ports p v }

/-! ## Taking an exception, and returning -/

/-- The vector of a Processor Exception (R250; not-ready is 4 by conflict C4). -/
def Exn.vector (e : Exn) : Nat :=
  match e with
  | .divideByZero => 0
  | .invalidOpcode => 1
  | .memoryOutOfBounds => 2
  | .invalidRegister => 3
  | .ioNotReady => 4
  | .ioInvalidPort => 5

/-- What trap entry does once its checks have passed (R270): the return address `ret` into cell `a`,
RSP to `a`, one handler more, not halted, and the core at the handler's address. -/
def State.enterHandler (s : State) (a ret handler : Int) : State :=
  (((((s.setCell a.toNat (ofInt ret)).setReg .rsp (ofInt a)).setIsrDepth (s.isrDepth + 1)).setHalted
    false).setPc handler)

/-- `TrapEntry(v, ret)` (R270), with its two model faults (R272, R273). -/
def trapEntry (s : State) (v : Nat) (ret : Int) : Out :=
  match s.vector v with
  | none => .fault (.unsetVector v)
  | some handler =>
    match toInt (s.reg .rsp) with
    | none => .fault (.doubleFault v)
    | some top =>
      if s.inBounds (top - 1) then .next (s.enterHandler (top - 1) ret handler)
      else .fault (.doubleFault v)

/-- The address a Processor Exception of the instruction at `pc`, or its INT, returns to: the next
instruction (R271, `SAVED_RIP_EXC = next`, D16). -/
def State.nextAddr (s : State) : Int := s.pc + 2

/-- `raise E` (R7, R266): trap entry from the state before the instruction did anything. -/
def raiseExn (s : State) (e : Exn) : Out := trapEntry s e.vector s.nextAddr

/-- How an instruction ends (R7, R12 step 5): `k` of what it computed, or one raise from the state `s` in
which it started, or a model fault. -/
def settleWith {α : Type} (s : State) (r : Act α) (k : α → Out) : Out :=
  match r with
  | .ok x => k x
  | .error (.raise e) => raiseExn s e
  | .error (.fault f) => .fault f

/-- How an instruction that completes in a next state ends. -/
def settle (s : State) (r : Act State) : Out := settleWith s r Host.Outcome.next

/-- The return from a handler (R170, R280): pops the return address into `pc`, and one handler less when
there is one. -/
def returnFromHandler (s : State) : Act State := do
  let p ← peek s
  let t ← addrOf p.2
  pure (((s.setReg .rsp (ofInt (p.1 + 1))).setPc t).setIsrDepth (s.isrDepth - 1))

end Sys2Proof.Machine
end

