-- ==== Sys2Proof/Machine/Operands.lean ====
section
/-! DEFINITION. The operand forms (spec/30_encoding.md R84 to R92, spec/20_memory.md R58,
spec/42_control_flow.md R165, spec/47_io.md R230). -/

namespace Sys2Proof.Machine

/-- The operand register of a number (R20, R23). -/
def regOfNat (n : Nat) : Option Reg :=
  match n with
  | 0 => some .rax
  | 1 => some .rbx
  | 2 => some .rcx
  | 3 => some .rdx
  | 4 => some .rpx
  | 5 => some .rvx
  | 8 => some .rsp
  | 9 => some .rbp
  | _ => none

/-- The operand register a Register parameter names, if it names one (R7, R23). -/
def regOf (r : RegNum) : Option Reg :=
  match r with
  | some (.ofNat n) => regOfNat n
  | _ => none

/-- `opreg(n)` (R7): the operand-register check. -/
def opreg (r : RegNum) : Act Reg :=
  match regOf r with
  | some x => .ok x
  | none => .error (.raise .invalidRegister)

/-- The effective address of an offset or an address `k` (R58): relative to the executing instruction,
or as it stands. -/
def effective (ty : AddrType) (s : State) (k : Int) : Int :=
  match ty with
  | .relative => s.pc + k
  | .absolute => k

/-- `target(first, r)` (R165), also the address LOAD, STRR and STRA access (R58). -/
def target (ty : AddrType) (s : State) (r : Reg) : Act Int := do
  let k ← addrOf (s.reg r)
  pure (effective ty s k)

/-- `port(q)` (R230): the port number register `q` holds. -/
def portOf (s : State) (q : Reg) : Act Nat :=
  match toInt (s.reg q) with
  | some (.ofNat p) => if p < Config.nPorts then .ok p else .error (.raise .ioInvalidPort)
  | _ => .error (.raise .ioInvalidPort)

/-- The vector register `r` holds (R218). -/
def vectorOf (s : State) (r : Reg) : Act Nat :=
  match toInt (s.reg r) with
  | some (.ofNat v) => if v < Config.nVectors then .ok v else .error (.fault .vectorOutOfRange)
  | _ => .error (.fault .vectorOutOfRange)

/-- The vector field of SETISRR and SETISRA (R89, R215). -/
def vectorField (v : BitVec 16) : Act Nat :=
  if v.toNat < Config.nVectors then .ok v.toNat else .error (.fault .vectorOutOfRange)

/-- A non-negative integer as a natural number. -/
def natOf (n : Option Int) : Option Nat :=
  match n with
  | some (.ofNat k) => some k
  | _ => none

/-- RET's count (R92, R168): 0 with no operand, else the non-negative integer the register holds. -/
def retCount (s : State) (c : RetCount) : Act Nat :=
  match c with
  | .noOperand => .ok 0
  | .inReg n => do
    let r ← opreg n
    match natOf (toInt (s.reg r)) with
    | some k => pure k
    | none => .error (.fault .retCountInvalid)

end Sys2Proof.Machine
end

