-- ==== Sys2Proof/Machine/Math.lean ====
section
/-! DEFINITION. The Math instructions, opcodes 0 to 25 (spec/40_math.md R110 to R143). -/

namespace Sys2Proof.Machine

/-- The template of format `RR` (R110): both register numbers checked, the destination first. -/
def mathRR (f : W64 → W64 → NumResult) (dst src : RegNum) (s : State) : Out :=
  settle s do
    let d ← opreg dst
    let r ← opreg src
    pure (s.setRegNum d (f (s.reg d) (s.reg r))).advance

/-- The template of format `R` (R110). -/
def mathR (f : W64 → NumResult) (dst : RegNum) (s : State) : Out :=
  settle s do
    let d ← opreg dst
    pure (s.setRegNum d (f (s.reg d))).advance

/-- The template of DIV, IDIV and MOD: a zero Source raises DivideByZero before anything is written
(R117). -/
def divRR (f : W64 → W64 → NumResult) (dst src : RegNum) (s : State) : Out :=
  settle s do
    let d ← opreg dst
    let r ← opreg src
    if isZero (s.reg r) then .error (.raise .divideByZero)
    else pure (s.setRegNum d (f (s.reg d) (s.reg r))).advance

/-- The template of CMP and TEST: the flags of `f` of the two operands, and nothing else (R143, R157). -/
def flagsRR (f : W64 → W64 → NumResult) (v1 v2 : RegNum) (s : State) : Out :=
  settle s do
    let a ← opreg v1
    let b ← opreg v2
    pure (s.setFlags (flagsOfNum (f (s.reg a) (s.reg b)))).advance

/-- ADD (R118). -/
def execAdd (dst src : RegNum) (s : State) : Out := mathRR numAdd dst src s

/-- SUB (R119). -/
def execSub (dst src : RegNum) (s : State) : Out := mathRR numSub dst src s

/-- MUL (R120). -/
def execMul (dst src : RegNum) (s : State) : Out := mathRR numMul dst src s

/-- DIV (R121). -/
def execDiv (dst src : RegNum) (s : State) : Out := divRR numDiv dst src s

/-- IDIV (R122). -/
def execIdiv (dst src : RegNum) (s : State) : Out := divRR numFloorDiv dst src s

/-- MOD (R123). -/
def execMod (dst src : RegNum) (s : State) : Out := divRR numMod dst src s

/-- EXP (R124): the Destination is the base, the Source the power. -/
def execExp (dst src : RegNum) (s : State) : Out := mathRR (fun a b => .word (Config.pow a b)) dst src s

/-- EXPE (R125): the Destination to the power e. -/
def execExpe (dst : RegNum) (s : State) : Out := mathR (fun a => .word (Config.pow a eulerWord)) dst s

/-- LOG (R126). -/
def execLog (dst : RegNum) (s : State) : Out := mathR (fun a => .word (Config.log10 a)) dst s

/-- LOGN (R127). -/
def execLogn (dst : RegNum) (s : State) : Out := mathR (fun a => .word (Config.ln a)) dst s

/-- SQRT (R128). -/
def execSqrt (dst : RegNum) (s : State) : Out := mathR numSqrt dst s

/-- MAX (R129). -/
def execMax (dst src : RegNum) (s : State) : Out := mathRR numMax dst src s

/-- MIN (R130). -/
def execMin (dst src : RegNum) (s : State) : Out := mathRR numMin dst src s

/-- FLR (R131). -/
def execFlr (dst : RegNum) (s : State) : Out := mathR numFloor dst s

/-- CEIL (R132). -/
def execCeil (dst : RegNum) (s : State) : Out := mathR numCeil dst s

/-- ABS (R133). -/
def execAbs (dst : RegNum) (s : State) : Out := mathR numAbs dst s

/-- SIN (R134). -/
def execSin (dst : RegNum) (s : State) : Out := mathR (fun a => .word (Config.sin a)) dst s

/-- COS (R135). -/
def execCos (dst : RegNum) (s : State) : Out := mathR (fun a => .word (Config.cos a)) dst s

/-- TAN (R136). -/
def execTan (dst : RegNum) (s : State) : Out := mathR (fun a => .word (Config.tan a)) dst s

/-- ASIN (R137). -/
def execAsin (dst : RegNum) (s : State) : Out := mathR (fun a => .word (Config.asin a)) dst s

/-- ACOS (R138). -/
def execAcos (dst : RegNum) (s : State) : Out := mathR (fun a => .word (Config.acos a)) dst s

/-- ATAN (R139). -/
def execAtan (dst : RegNum) (s : State) : Out := mathR (fun a => .word (Config.atan a)) dst s

/-- RAND (R140): a draw from `S(a)`, `a` the old value of the Destination (R115). -/
def execRand (dst : RegNum) (s : State) : Out :=
  settle s do
    let d ← opreg dst
    pure ((s.setReg d (randWord (s.reg d) (Config.freeWord s.draws))).drawn).advance

/-- INC (R141). -/
def execInc (dst : RegNum) (s : State) : Out := mathR (fun a => numAdd a oneWord) dst s

/-- DEC (R142). -/
def execDec (dst : RegNum) (s : State) : Out := mathR (fun a => numSub a oneWord) dst s

/-- CMP (R143): the flags of `Value2 - Value1`. -/
def execCmp (v1 v2 : RegNum) (s : State) : Out := flagsRR (fun a b => numSub b a) v1 v2 s

end Sys2Proof.Machine
end

