-- ==== Sys2Proof/Machine/Bitwise.lean ====
section
/-! DEFINITION. The Bitwise instructions, opcodes 26 to 32 (spec/41_bitwise.md R150 to R157). -/

namespace Sys2Proof.Machine

/-- The word a bitwise function answers; where it answers none, the model fault U6 (R150). -/
def bitwiseResult (r : Option W64) : Act W64 :=
  match r with
  | some w => .ok w
  | none => .error (.fault .bitwiseOperandNotInteger)

/-- The template of AND, OR, XOR, SHL and SHR (R150 to R156). -/
def bitwiseRR (f : W64 → W64 → Option W64) (dst src : RegNum) (s : State) : Out :=
  settle s do
    let d ← opreg dst
    let r ← opreg src
    let w ← bitwiseResult (f (s.reg d) (s.reg r))
    pure (s.setReg d w).advance

/-- AND (R151). -/
def execAnd (dst src : RegNum) (s : State) : Out := bitwiseRR numAnd dst src s

/-- OR (R152). -/
def execOr (dst src : RegNum) (s : State) : Out := bitwiseRR numOr dst src s

/-- XOR (R153). -/
def execXor (dst src : RegNum) (s : State) : Out := bitwiseRR numXor dst src s

/-- NOT (R154). -/
def execNot (dst : RegNum) (s : State) : Out :=
  settle s do
    let d ← opreg dst
    let w ← bitwiseResult (numNot (s.reg d))
    pure (s.setReg d w).advance

/-- SHL (R155): the Source register holds the count. -/
def execShl (dst src : RegNum) (s : State) : Out := bitwiseRR numShl dst src s

/-- SHR (R156). -/
def execShr (dst src : RegNum) (s : State) : Out := bitwiseRR numShr dst src s

/-- TEST (R157, C8): the flags of `Value1 - Value2`. -/
def execTest (v1 v2 : RegNum) (s : State) : Out := flagsRR numSub v1 v2 s

end Sys2Proof.Machine
end

