-- ==== Sys2Proof/Machine/ControlFlow.lean ====
section
/-! DEFINITION. The control-flow instructions, opcodes 33 to 48 (spec/42_control_flow.md R165 to R182). -/

namespace Sys2Proof.Machine

/-- The body of every jump (R165, R166): the register number is checked whether or not the jump is taken;
the register is read only when it is. -/
def jumpIf (taken : Bool) (ty : AddrType) (tgt : RegNum) (s : State) : Out :=
  settle s do
    let r ← opreg tgt
    if taken then do
      let t ← target ty s r
      pure (s.setPc t)
    else pure s.advance

/-- CALL (R167, C7): the target is computed before the push of the next address. -/
def execCall (ty : AddrType) (tgt : RegNum) (s : State) : Out :=
  settle s do
    let r ← opreg tgt
    let t ← target ty s r
    let u ← push s (ofInt s.nextAddr)
    pure (u.setPc t)

/-- RET (R168): the count is read first; the `n` extra cells are skipped, not read. -/
def execRet (count : RetCount) (s : State) : Out :=
  settle s do
    let n ← retCount s count
    let p ← peek s
    let t ← addrOf p.2
    pure ((s.setReg .rsp (ofInt (p.1 + 1 + n))).setPc t)

/-- HLT (R169). -/
def execHlt (s : State) : Out := .next (s.setHalted true).advance

/-- IRET (R170, R280). -/
def execIret (s : State) : Out := settle s (returnFromHandler s)

/-- JMP (R171). -/
def execJmp (ty : AddrType) (tgt : RegNum) (s : State) : Out := jumpIf true ty tgt s

/-- JP (R172). -/
def execJp (ty : AddrType) (tgt : RegNum) (s : State) : Out := jumpIf s.flags.pf ty tgt s

/-- JNP (R173). -/
def execJnp (ty : AddrType) (tgt : RegNum) (s : State) : Out := jumpIf (!s.flags.pf) ty tgt s

/-- JZ (R174). -/
def execJz (ty : AddrType) (tgt : RegNum) (s : State) : Out := jumpIf s.flags.zf ty tgt s

/-- JNZ (R175). -/
def execJnz (ty : AddrType) (tgt : RegNum) (s : State) : Out := jumpIf (!s.flags.zf) ty tgt s

/-- JS (R176). -/
def execJs (ty : AddrType) (tgt : RegNum) (s : State) : Out := jumpIf s.flags.sf ty tgt s

/-- JNS (R177). -/
def execJns (ty : AddrType) (tgt : RegNum) (s : State) : Out := jumpIf (!s.flags.sf) ty tgt s

/-- JL (R178): the same test as JS. -/
def execJl (ty : AddrType) (tgt : RegNum) (s : State) : Out := jumpIf s.flags.sf ty tgt s

/-- JLE (R179). -/
def execJle (ty : AddrType) (tgt : RegNum) (s : State) : Out := jumpIf (s.flags.sf || s.flags.zf) ty tgt s

/-- JG (R180). -/
def execJg (ty : AddrType) (tgt : RegNum) (s : State) : Out := jumpIf (!s.flags.sf && !s.flags.zf) ty tgt s

/-- JGE (R181): the same test as JNS. -/
def execJge (ty : AddrType) (tgt : RegNum) (s : State) : Out := jumpIf (!s.flags.sf) ty tgt s

/-- LOOP (R182): taken when RCX is neither `+0` nor `-0`; RCX is not changed (`LOOP_DECREMENTS = false`). -/
def execLoop (ty : AddrType) (tgt : RegNum) (s : State) : Out := jumpIf (!isZero (s.reg .rcx)) ty tgt s

end Sys2Proof.Machine
end

