-- ==== Sys2Proof/Machine/Data.lean ====
section
/-! DEFINITION. The Data instructions, opcodes 53 to 59 (spec/44_data.md R200 to R206). -/

namespace Sys2Proof.Machine

/-- MOV (R200). -/
def execMov (dst src : RegNum) (s : State) : Out :=
  settle s do
    let d ← opreg dst
    let r ← opreg src
    pure (s.setReg d (s.reg r)).advance

/-- SWP (R201): both registers are read before either is written. -/
def execSwp (r1 r2 : RegNum) (s : State) : Out :=
  settle s do
    let a ← opreg r1
    let b ← opreg r2
    pure ((s.setReg a (s.reg b)).setReg b (s.reg a)).advance

/-- LOAD (R202): one register is both the address and the destination. -/
def execLoad (ty : AddrType) (dst : RegNum) (s : State) : Out :=
  settle s do
    let d ← opreg dst
    let ea ← target ty s d
    let w ← memRead s ea
    pure (s.setReg d w).advance

/-- The body of STRR and STRA: the first register holds the address, the second the word. -/
def storeReg (ty : AddrType) (addr src : RegNum) (s : State) : Out :=
  settle s do
    let d ← opreg addr
    let r ← opreg src
    let ea ← target ty s d
    let t ← memWrite s ea (s.reg r)
    pure t.advance

/-- STRR (R203). -/
def execStrr (addr src : RegNum) (s : State) : Out := storeReg .relative addr src s

/-- STRA (R204). -/
def execStra (addr src : RegNum) (s : State) : Out := storeReg .absolute addr src s

/-- LDI (R205): the whole Second value, unchanged. -/
def execLdi (dst : RegNum) (imm : W64) (s : State) : Out :=
  settle s do
    let d ← opreg dst
    pure (s.setReg d imm).advance

/-- RIP (R206): the address of this instruction as a number. -/
def execRip (dst : RegNum) (s : State) : Out :=
  settle s do
    let d ← opreg dst
    pure (s.setReg d (ofInt s.pc)).advance

end Sys2Proof.Machine
end

