-- ==== Sys2Proof/Machine/Interrupt.lean ====
section
/-! DEFINITION. The Interrupt instructions, opcodes 60 to 62 (spec/45_interrupt.md R215 to R218). -/

namespace Sys2Proof.Machine

/-- The body of SETISRR and SETISRA: register number, then vector, then address (R216, R217). -/
def setHandler (ty : AddrType) (v : BitVec 16) (addr : RegNum) (s : State) : Out :=
  settle s do
    let r ← opreg addr
    let n ← vectorField v
    let a ← target ty s r
    pure (s.setVector n a).advance

/-- SETISRR (R216): the entry holds the address resolved now. -/
def execSetisrr (v : BitVec 16) (addr : RegNum) (s : State) : Out := setHandler .relative v addr s

/-- SETISRA (R217). -/
def execSetisra (v : BitVec 16) (addr : RegNum) (s : State) : Out := setHandler .absolute v addr s

/-- INT (R218): the handler of the vector the register holds, at any `isr_depth` (R274). -/
def execInt (vec : RegNum) (s : State) : Out :=
  settleWith s
    (do
      let r ← opreg vec
      vectorOf s r)
    (fun v => trapEntry s v s.nextAddr)

end Sys2Proof.Machine
end

