-- ==== Sys2Proof/Machine/Io.lean ====
section
/-! DEFINITION. The IO instructions, opcodes 64 to 67 (spec/47_io.md R230 to R235). -/

namespace Sys2Proof.Machine

/-- `OUT_NOT_READY_WHEN` (R235, C5): the value of the outbound flag at which OUT raises. -/
def outNotReadyWhen : Bool := false

/-- The ready check (R235): IoNotReady, vector 4 (C4), when the flag says so. -/
def readyCheck (notReady : Bool) : Act Unit :=
  if notReady then .error (.raise .ioNotReady) else .ok ()

/-- A ready flag as a number (R233): `+0` or 1.0. -/
def flagWord (b : Bool) : W64 := ofInt (b.toNat : Int)

/-- IN (R231): `in_data` keeps its value. -/
def execIn (dst port : RegNum) (s : State) : Out :=
  settle s do
    let d ← opreg dst
    let q ← opreg port
    let p ← portOf s q
    let _ ← readyCheck (!(s.port p).inReady)
    pure ((s.setReg d (s.port p).inData).setPort p { s.port p with inReady := false }).advance

/-- OUT (R232). -/
def execOut (src port : RegNum) (s : State) : Out :=
  settle s do
    let r ← opreg src
    let q ← opreg port
    let p ← portOf s q
    let _ ← readyCheck ((s.port p).outReady == outNotReadyWhen)
    pure (s.setPort p { s.port p with outData := s.reg r, outReady := true }).advance

/-- INR (R233). -/
def execInr (dst port : RegNum) (s : State) : Out :=
  settle s do
    let d ← opreg dst
    let q ← opreg port
    let p ← portOf s q
    pure (s.setReg d (flagWord (s.port p).inReady)).advance

/-- OUTR (R234). -/
def execOutr (dst port : RegNum) (s : State) : Out :=
  settle s do
    let d ← opreg dst
    let q ← opreg port
    let p ← portOf s q
    pure (s.setReg d (flagWord (s.port p).outReady)).advance

end Sys2Proof.Machine
end

