-- ==== Sys2Proof/Machine/Other.lean ====
section
/-! DEFINITION. The instruction of Type Other, opcode 63 (spec/46_other.md R225). -/

namespace Sys2Proof.Machine

/-- NOP (R225). -/
def execNop (s : State) : Out := .next s.advance

end Sys2Proof.Machine
end

