-- ==== Sys2Proof/Machine/Stack.lean ====
section
/-! DEFINITION. The Stack instructions, opcodes 49 to 52 (spec/43_stack.md R190 to R195). -/

namespace Sys2Proof.Machine

/-- PUSH (R192): `PUSH RSP` stores the value RSP had before. -/
def execPush (src : RegNum) (s : State) : Out :=
  settle s do
    let r ← opreg src
    let t ← push s (s.reg r)
    pure t.advance

/-- PUSHF (R193): the flags as a number. -/
def execPushf (s : State) : Out :=
  settle s do
    let t ← push s (ofInt (flagsNumber s.flags))
    pure t.advance

/-- POP (R194): the destination is written after RSP, so `POP RSP` ends with the popped word. -/
def execPop (dst : RegNum) (s : State) : Out :=
  settle s do
    let d ← opreg dst
    let p ← pop s
    pure (p.2.setReg d p.1).advance

/-- The flags a popped word stands for; the model fault U8 when it is no non-negative integer (R195). -/
def poppedFlags (w : W64) : Act Flags :=
  match natOf (toInt w) with
  | some n => .ok (flagsOfNumber n)
  | none => .error (.fault .popfNotFlagsWord)

/-- POPF (R195). -/
def execPopf (s : State) : Out :=
  settle s do
    let p ← pop s
    let f ← poppedFlags p.1
    pure (p.2.setFlags f).advance

end Sys2Proof.Machine
end

