-- ==== Sys2Proof/Machine/Dispatch.lean ====
section
/-! DEFINITION. One instruction's execution: one arm per constructor of Instr, each a call of its meaning
(spec/00_scope.md R12 step 5). -/

namespace Sys2Proof.Machine

def exec (i : Instr) (s : State) : Host.Outcome State Fault Refusal :=
  match i with
  | .add dst src => Sys2Proof.Machine.execAdd dst src s
  | .sub dst src => Sys2Proof.Machine.execSub dst src s
  | .mul dst src => Sys2Proof.Machine.execMul dst src s
  | .div dst src => Sys2Proof.Machine.execDiv dst src s
  | .idiv dst src => Sys2Proof.Machine.execIdiv dst src s
  | .mod dst src => Sys2Proof.Machine.execMod dst src s
  | .exp dst src => Sys2Proof.Machine.execExp dst src s
  | .expe dst => Sys2Proof.Machine.execExpe dst s
  | .log dst => Sys2Proof.Machine.execLog dst s
  | .logn dst => Sys2Proof.Machine.execLogn dst s
  | .sqrt dst => Sys2Proof.Machine.execSqrt dst s
  | .max dst src => Sys2Proof.Machine.execMax dst src s
  | .min dst src => Sys2Proof.Machine.execMin dst src s
  | .flr dst => Sys2Proof.Machine.execFlr dst s
  | .ceil dst => Sys2Proof.Machine.execCeil dst s
  | .abs dst => Sys2Proof.Machine.execAbs dst s
  | .sin dst => Sys2Proof.Machine.execSin dst s
  | .cos dst => Sys2Proof.Machine.execCos dst s
  | .tan dst => Sys2Proof.Machine.execTan dst s
  | .asin dst => Sys2Proof.Machine.execAsin dst s
  | .acos dst => Sys2Proof.Machine.execAcos dst s
  | .atan dst => Sys2Proof.Machine.execAtan dst s
  | .rand dst => Sys2Proof.Machine.execRand dst s
  | .inc dst => Sys2Proof.Machine.execInc dst s
  | .dec dst => Sys2Proof.Machine.execDec dst s
  | .cmp v1 v2 => Sys2Proof.Machine.execCmp v1 v2 s
  | .and dst src => Sys2Proof.Machine.execAnd dst src s
  | .or dst src => Sys2Proof.Machine.execOr dst src s
  | .xor dst src => Sys2Proof.Machine.execXor dst src s
  | .not dst => Sys2Proof.Machine.execNot dst s
  | .shl dst src => Sys2Proof.Machine.execShl dst src s
  | .shr dst src => Sys2Proof.Machine.execShr dst src s
  | .test v1 v2 => Sys2Proof.Machine.execTest v1 v2 s
  | .call ty tgt => Sys2Proof.Machine.execCall ty tgt s
  | .ret count => Sys2Proof.Machine.execRet count s
  | .hlt => Sys2Proof.Machine.execHlt s
  | .iret => Sys2Proof.Machine.execIret s
  | .jmp ty tgt => Sys2Proof.Machine.execJmp ty tgt s
  | .jp ty tgt => Sys2Proof.Machine.execJp ty tgt s
  | .jnp ty tgt => Sys2Proof.Machine.execJnp ty tgt s
  | .jz ty tgt => Sys2Proof.Machine.execJz ty tgt s
  | .jnz ty tgt => Sys2Proof.Machine.execJnz ty tgt s
  | .js ty tgt => Sys2Proof.Machine.execJs ty tgt s
  | .jns ty tgt => Sys2Proof.Machine.execJns ty tgt s
  | .jl ty tgt => Sys2Proof.Machine.execJl ty tgt s
  | .jle ty tgt => Sys2Proof.Machine.execJle ty tgt s
  | .jg ty tgt => Sys2Proof.Machine.execJg ty tgt s
  | .jge ty tgt => Sys2Proof.Machine.execJge ty tgt s
  | .loop ty tgt => Sys2Proof.Machine.execLoop ty tgt s
  | .push src => Sys2Proof.Machine.execPush src s
  | .pushf => Sys2Proof.Machine.execPushf s
  | .pop dst => Sys2Proof.Machine.execPop dst s
  | .popf => Sys2Proof.Machine.execPopf s
  | .mov dst src => Sys2Proof.Machine.execMov dst src s
  | .swp r1 r2 => Sys2Proof.Machine.execSwp r1 r2 s
  | .load ty dst => Sys2Proof.Machine.execLoad ty dst s
  | .strr addr src => Sys2Proof.Machine.execStrr addr src s
  | .stra addr src => Sys2Proof.Machine.execStra addr src s
  | .ldi dst imm => Sys2Proof.Machine.execLdi dst imm s
  | .rip dst => Sys2Proof.Machine.execRip dst s
  | .setisrr v addr => Sys2Proof.Machine.execSetisrr v addr s
  | .setisra v addr => Sys2Proof.Machine.execSetisra v addr s
  | .int vec => Sys2Proof.Machine.execInt vec s
  | .nop => Sys2Proof.Machine.execNop s
  | .inp dst port => Sys2Proof.Machine.execIn dst port s
  | .outp src port => Sys2Proof.Machine.execOut src port s
  | .inr dst port => Sys2Proof.Machine.execInr dst port s
  | .outr dst port => Sys2Proof.Machine.execOutr dst port s

end Sys2Proof.Machine
end

