-- ==== Sys2Proof/Machine/Cycle.lean ====
section
/-! DEFINITION. The step of the machine (spec/00_scope.md R12): the fetch, taking a hardware interrupt, the
halt state, the core's step, and the steps of the other agents (R236, R260). -/

namespace Sys2Proof.Machine

/-! ## The core -/

/-- Which element of the bag is taken (R262): any of them, by the free value of draw `k`. -/
def selectPending (k : Nat) (l : List Nat) : Nat :=
  match l with
  | [] => 0
  | [v] => v
  | v :: rest => (v :: rest).getD (Config.irqSelect k (v :: rest) % (v :: rest).length) v

/-- A hardware interrupt can be taken (R261): one is pending and no handler runs. -/
def State.interruptible (s : State) : Bool := s.isrDepth == 0 && !s.pending.isEmpty

/-- Takes one pending interrupt (R261): the return address is the address of the instruction not yet
executed (R271). -/
def takeInterrupt (s : State) : Out :=
  let v := selectPending s.draws s.pending
  trapEntry ((s.setPending (s.pending.erase v)).drawn) v s.pc

/-- The instruction word at `pc` (R12 step 2). -/
def fetch (s : State) : Act W128 := memReadInstr s s.pc

/-- Decodes and executes a fetched word: IR holds it, an illegal opcode raises (R12 steps 2 to 5, R95). -/
def execWord (s : State) (w : W128) : Out :=
  match decode w with
  | .ok i => exec i (s.setIr w)
  | .error (.invalidOpcode _) => raiseExn (s.setIr w) .invalidOpcode

/-- One step of the core (R12): an interrupt, or nothing while halted (R285), or one instruction; a
fetch out of bounds raises with IR unchanged (R26, D51). -/
def coreStep (s : State) : Out :=
  if s.interruptible then takeInterrupt s
  else if s.halted then .next s
  else settleWith s (fetch s) (execWord s)

/-! ## The other agents -/

/-- Adds one occurrence of `v` to the bag, kept as a rising list. -/
def addPending (l : List Nat) (v : Nat) : List Nat :=
  match l with
  | [] => [v]
  | u :: rest => if v ≤ u then v :: u :: rest else u :: addPending rest v

/-- `pending <- pending + v` (R260). -/
def State.raiseIrq (s : State) (line : Nat) : State :=
  s.setPending (addPending s.pending (Config.irqBase + line))

/-- One step of an agent outside the core (R236, R260); the core's own turn changes nothing here. -/
def agentStep (t : Turn) (s : State) : State :=
  match t with
  | .core => s
  | .irq k => s.raiseIrq k.val
  | .deliver p w => s.setPort p.val { s.port p.val with inData := w, inReady := true }
  | .take p => s.setPort p.val { s.port p.val with outReady := false }
  | .readyOut p => s.setPort p.val { s.port p.val with outReady := true }
  | .withdraw p => s.setPort p.val { s.port p.val with inReady := false }

/-- `turns <- l` (log 11). -/
def State.setTurns (s : State) (l : List Turn) : State := { s with turns := l }

/-- Whose move comes next, and the state with that turn used up: the first turn listed, or, when none is,
the next one of the free order of moves (log 11). -/
def State.takeTurn (s : State) : Turn × State :=
  match s.turns with
  | [] => (Config.schedule s.moves, { s with moves := s.moves + 1 })
  | t :: rest => (t, s.setTurns rest)

/-- The agent of turn `t` moves (R12). -/
def moveOf (t : Turn) (s : State) : Out :=
  match t with
  | .core => coreStep s
  | t => .next (agentStep t s)

/-- One step of the machine: the agent whose turn it is moves, between two core steps or as one (R12, R236,
R260). -/
def cycle (s : State) : Out := moveOf s.takeTurn.1 s.takeTurn.2

/-! ## Placing an instruction for the next step -/

/-- Where the next fetch can find an instruction: `pc` itself when both cells exist, else cell 0 of a
memory that holds one. -/
def State.fetchable (s : State) : State :=
  if s.inBounds s.pc && s.inBounds (s.pc + 1) then s
  else { s with pc := 0, memSize := max s.memSize 2 }

/-- The word `w` stands where the very next step fetches and runs it: in the cells at `pc`, with the core
next to move, not halted and no interrupt waiting; the free order of moves goes on after it (log 5). -/
def State.placeInstr (s : State) (w : W128) : State :=
  let t := { s.fetchable with halted := false, pending := [], turns := [.core] }
  (t.setCell t.pc.toNat (lowCell w)).setCell (t.pc.toNat + 1) (highCell w)

end Sys2Proof.Machine
end

