-- ==== Sys2Proof/Machine/Step.lean ====
section
/-! DEFINITION. One step of the machine, and an instruction placed for the next step. -/

namespace Sys2Proof.Machine

/-- One step (R12): Machine/Cycle.lean says what it does. -/
def step (s : State) : Host.Outcome State Fault Refusal := cycle s

/-- `s` with the instruction whose bits are the low `nbits` bits of `w` where `step` fetches next
(log 5). -/
def State.withFetchWord (s : State) (nbits w : Nat) : State := s.placeInstr (tableWord nbits w)

end Sys2Proof.Machine
end

