-- ==== Sys2Proof/Machine/Invariant.lean ====
section
/-! DEFINITION. The form of a state that every step keeps: memory, vector table and ports canonical and in
their ranges, the bag of pending vectors in order, the reserved flag bits 0 (spec/10_state.md R27 to R35,
spec/20_memory.md R50, R51). -/

namespace Sys2Proof.Machine

/-- The canonical form of memory: addresses strictly rising. An unlisted cell holds no known word, so no
entry can equal what an unlisted cell reads as (log 4). -/
def Memory.wf (m : Sparse W64) : Bool := Sparse.wf m

/-- The canonical form of the ports: numbers strictly rising, below 128, no port as after reset. -/
def Ports.wf (m : Sparse Port) : Bool :=
  Sparse.wf m && Sparse.keysBelow Config.nPorts m && m.all fun e => decide (e.2 ≠ Port.reset)

/-- The canonical form of the vector table: vectors strictly rising, below 512 (R30). -/
def Vectors.wf (m : Sparse Int) : Bool := Sparse.wf m && Sparse.keysBelow Config.nVectors m

/-- A vector of an IRQ line: 64 to 127 (R250, R260). -/
def isIrqVector (v : Nat) : Bool :=
  decide (Config.irqBase ≤ v) && decide (v < Config.irqBase + Config.nIrq)

/-- The list does not fall, from `lo` on. -/
def nondecreasingFrom (lo : Nat) (l : List Nat) : Bool :=
  match l with
  | [] => true
  | v :: rest => decide (lo ≤ v) && nondecreasingFrom v rest

/-- The canonical form of `pending`: IRQ vectors, not falling (R31). -/
def Pending.wf (l : List Nat) : Bool := nondecreasingFrom 0 l && l.all isIrqVector

/-- The invariant of the machine. -/
structure Inv (s : State) : Prop where
  /-- Memory is canonical (R50). -/
  memory : Memory.wf s.mem = true
  /-- Every cell listed exists (R51). -/
  cells : Sparse.keysBelow s.memSize s.mem = true
  /-- `1 <= MEM_SIZE <= 2^53` (R50). -/
  sizeLow : 1 ≤ s.memSize
  /-- See `sizeLow`. -/
  sizeHigh : s.memSize ≤ Config.maxMemSize
  /-- The vector table is canonical (R30). -/
  vectors : Vectors.wf s.ivt = true
  /-- The ports are canonical (R35). -/
  ports : Ports.wf s.ports = true
  /-- The pending vectors are IRQ vectors, in order (R31). -/
  pending : Pending.wf s.pending = true
  /-- RFLAGS bits 63:3 are 0 (R27). -/
  reserved : s.rflags >>> 3 = 0#64

end Sys2Proof.Machine
end

