-- ==== Sys2Proof/Safety.lean ====
section
/-! DEFINITION. What counts as a safe run, in the words claims use (spec/60_exceptions.md R286,
spec/93_implementation_defined.md part 1). -/

namespace Sys2Proof.Safety

open Sys2Proof.Machine

/-- A step that goes on: it answers a next state, no model fault and no refusal. -/
def GoesOn (s : State) : Prop := ∃ t, step s = .next t

/-- The first `k` steps from `s` go on. -/
def SafeFor (k : Nat) (s : State) : Prop := ∃ t, Host.Core.run core k s = .next t

/-- No IRQ source will ever act: no turn listed is one of an IRQ line, nor any turn that the free order of
moves gives from here on (R260, R286). -/
def NoMoreIrq (s : State) : Prop :=
  (∀ k, Turn.irq k ∉ s.turns) ∧ ∀ n, s.moves ≤ n → ∀ k, Config.schedule n ≠ .irq k

/-- The run has ended (R286): the core is halted and no step can wake it, because a handler runs, or because
nothing is pending and no IRQ source will ever act. Devices may still act. -/
def Ended (s : State) : Prop := s.halted = true ∧ (0 < s.isrDepth ∨ (s.pending = [] ∧ NoMoreIrq s))

/-- States the machine reaches from the reset state, with some list of turns for the agents before the free order
of moves (R300, log 11). -/
def Reachable (s : State) : Prop :=
  ∃ k turns, Host.Core.run core k (State.reset.setTurns turns) = .next s

end Sys2Proof.Safety
end

