-- ==== Sys2Proof/Certificates/Slice0/Obligations.lean ====
section
/-! DEFINITION. The statements for the provers, from the numbered rules of spec/, and the words they are
written in. -/

namespace Sys2Proof.Spec

open Sys2Proof.Machine

/-! ## The words of the statements: numbers -/

/-- `num(w)` of a finite word, by the formula of R8. -/
def numQ (w : W64) : ℚ :=
  (if signBit w then -1 else 1) *
    (if expField w = 0 then (fracField w : ℚ) * 2 ^ (-1074 : Int)
     else ((2 ^ 52 + fracField w : Nat) : ℚ) * 2 ^ ((expField w : Int) - 1075))

/-- `num(a) < num(b)` for words that are no NaN, infinities included. -/
def numBelow (a b : W64) : Prop :=
  if isFinite a then
    (if isFinite b then numQ a < numQ b else signBit b = false)
  else
    signBit a = true ∧ (isFinite b = true ∨ signBit b = false)

/-- `w` is the number `q` rounded to the nearest binary64 value, ties to the value with an even fraction,
an infinity of its sign from `2^1024 - 2^970` on (R10). It leaves the sign of a zero open. -/
def RoundsTo (q : ℚ) (w : W64) : Prop :=
  (|q| < 2 ^ 1024 - 2 ^ 970 →
    isFinite w = true ∧
    (∀ v, isFinite v = true → |numQ w - q| ≤ |numQ v - q|) ∧
    (∀ v, isFinite v = true → numQ v ≠ numQ w → |numQ v - q| = |numQ w - q| → fracField w % 2 = 0)) ∧
  (2 ^ 1024 - 2 ^ 970 ≤ |q| → isInf w = true ∧ (signBit w = true ↔ q < 0))

/-- The result `v` of a function of `N` is `q` rounded, a zero having the sign `neg` (R10, R111). -/
def RoundedResult (v : NumResult) (q : ℚ) (neg : Bool) : Prop :=
  ∃ w, v = .word w ∧ RoundsTo q w ∧ (isZero w = true → signBit w = neg)

/-- `S(a)` (R115). -/
def inS (a w : W64) : Prop :=
  if isNaN a then isNaN w = true
  else if isInf a then isNaN w = false ∧ (isZero w = true ∨ signBit w = signBit a)
  else isFinite w = true ∧ min 0 (numQ a) ≤ numQ w ∧ numQ w ≤ max 0 (numQ a)

/-! ## The words of the statements: instructions -/

/-- Every word with opcode `op` decodes to the instruction `f` makes of its First and Second value,
whatever its reserved bits hold (R82, R93, R94). -/
def Encoded (op : Nat) (f : BitVec 16 → W64 → Instr) : Prop :=
  ∀ w : W128, (w.extractLsb' 0 8).toNat = op → decode w = .ok (f (w.extractLsb' 8 16) (w.extractLsb' 64 64))

/-- The instruction at `s.pc` raises the exception of vector `v`: trap entry from the state in which it
started, with the address of the next instruction (R7, R266, R271). -/
def raises (s : State) (v : Nat) : Out := trapEntry s v (s.pc + 2)

/-- Cell `a` exists (R51). -/
def InMem (s : State) (a : Int) : Prop := 0 ≤ a ∧ a < s.memSize

/-- Cell `a` holds `w` in `t`, and every other cell is as in `s`. -/
def StoresOnly (s t : State) (a : Int) (w : W64) : Prop :=
  t.cell a.toNat = some w ∧ ∀ b, b ≠ a.toNat → t.cell b = s.cell b

/-- `t` is `s` with the result `v` in register `d` and the sequential pc. Of a NaN result only that it is a
NaN is said (R116), and the model's own counter of draws may move with it. -/
def WritesResult (s t : State) (d : Reg) (v : NumResult) : Prop :=
  t = { s with regs := s.regs.set d (t.reg d), pc := s.pc + 2, draws := t.draws } ∧
  match v with
  | .word w => t.reg d = w ∧ t.draws = s.draws
  | .nan => isNaN (t.reg d) = true

/-- The instruction `i` completes with the result `v` in register `d` and nothing else changed. -/
def Completes (i : Instr) (s : State) (d : Reg) (v : NumResult) : Prop :=
  ∃ t, exec i s = .next t ∧ WritesResult s t d v

/-- A Math instruction of format `RR` with no exception but InvalidRegister (R110). -/
def MathRR (op : Nat) (mk : RegNum → RegNum → Instr) (f : W64 → W64 → NumResult) : Prop :=
  Encoded op (fun a b => mk (regInFirst a) (regInSecond b)) ∧
  (∀ s dst src, regOf dst = none ∨ regOf src = none → exec (mk dst src) s = raises s 3) ∧
  ∀ s dst src d r, regOf dst = some d → regOf src = some r →
    Completes (mk dst src) s d (f (s.reg d) (s.reg r))

/-- A Math instruction of format `R` (R110). -/
def MathR (op : Nat) (mk : RegNum → Instr) (f : W64 → NumResult) : Prop :=
  Encoded op (fun a _ => mk (regInFirst a)) ∧
  (∀ s dst, regOf dst = none → exec (mk dst) s = raises s 3) ∧
  ∀ s dst d, regOf dst = some d → Completes (mk dst) s d (f (s.reg d))

/-- DIV, IDIV or MOD (R117, R121 to R123). -/
def Division (op : Nat) (mk : RegNum → RegNum → Instr) (f : W64 → W64 → NumResult) : Prop :=
  Encoded op (fun a b => mk (regInFirst a) (regInSecond b)) ∧
  (∀ s dst src, regOf dst = none ∨ regOf src = none → exec (mk dst src) s = raises s 3) ∧
  ∀ s dst src d r, regOf dst = some d → regOf src = some r →
    (isZero (s.reg r) = true → exec (mk dst src) s = raises s 0) ∧
    (isZero (s.reg r) = false → Completes (mk dst src) s d (f (s.reg d) (s.reg r)))

/-- The integer a bitwise instruction computes of the integers `m` and `n`, and whether it has one (R150). -/
structure IntOp where
  /-- The result for the operands on which the operation is defined. -/
  value : Int → Int → Int
  /-- Whether the second operand is allowed. -/
  allowed : Int → Prop

/-- A bitwise instruction of format `RR` (R150 to R153, R155, R156): the integer operation, or the model
fault where an operand is no integer or is not allowed. -/
def BitwiseRR (op : Nat) (mk : RegNum → RegNum → Instr) (f : IntOp) : Prop :=
  Encoded op (fun a b => mk (regInFirst a) (regInSecond b)) ∧
  (∀ s dst src, regOf dst = none ∨ regOf src = none → exec (mk dst src) s = raises s 3) ∧
  ∀ s dst src d r, regOf dst = some d → regOf src = some r →
    ((toInt (s.reg d) = none ∨ toInt (s.reg r) = none ∨ (∃ n, toInt (s.reg r) = some n ∧ ¬ f.allowed n)) →
      exec (mk dst src) s = .fault .bitwiseOperandNotInteger) ∧
    ∀ m n, toInt (s.reg d) = some m → toInt (s.reg r) = some n → f.allowed n →
      exec (mk dst src) s =
        .next { s with regs := s.regs.set d (ofInt (f.value m n)), pc := s.pc + 2 }

/-- The address of an address register holding the integer `k` (R58, R165). -/
def addressOf (ty : AddrType) (s : State) (k : Int) : Int :=
  match ty with
  | .relative => s.pc + k
  | .absolute => k

/-- First value 0 selects relative, every other value absolute (R88). -/
def TypeSelector : Prop := ∀ first : BitVec 16, typeInFirst first = .relative ↔ first.toNat = 0

/-- A jump of opcode `op`, taken exactly when `cond` (R165, R166): when it is not taken its register is
only checked, not read. -/
def JumpWhen (op : Nat) (mk : AddrType → RegNum → Instr) (cond : State → Bool) : Prop :=
  Encoded op (fun a b => mk (typeInFirst a) (regInSecond b)) ∧
  ∀ s ty tgt,
    (regOf tgt = none → exec (mk ty tgt) s = raises s 3) ∧
    ∀ r, regOf tgt = some r →
      (cond s = false → exec (mk ty tgt) s = .next { s with pc := s.pc + 2 }) ∧
      (cond s = true → toInt (s.reg r) = none → exec (mk ty tgt) s = raises s 2) ∧
      (cond s = true → ∀ k, toInt (s.reg r) = some k →
        exec (mk ty tgt) s = .next { s with pc := addressOf ty s k })

/-- CMP or TEST (R143, R157): the flags of `r`, the difference `f` of the two operands, and nothing else.
The flags of a NaN are 0 (R28). -/
def ComparesBy (op : Nat) (mk : RegNum → RegNum → Instr) (f : W64 → W64 → NumResult) : Prop :=
  Encoded op (fun a b => mk (regInFirst a) (regInSecond b)) ∧
  (∀ s v1 v2, regOf v1 = none ∨ regOf v2 = none → exec (mk v1 v2) s = raises s 3) ∧
  ∀ s v1 v2 a b, regOf v1 = some a → regOf v2 = some b →
    ∃ t, exec (mk v1 v2) s = .next t ∧ t = { s with rflags := t.rflags, pc := s.pc + 2 } ∧
      t.rflags >>> 3 = 0#64 ∧
      ∃ r, (f (s.reg a) (s.reg b) = .word r ∨ f (s.reg a) (s.reg b) = .nan ∧ isNaN r = true) ∧
        t.flags = flagsOf r

/-- PF of RFLAGS, bit 0 (R27). -/
def PF (s : State) : Bool := s.rflags.getLsbD 0

/-- ZF of RFLAGS, bit 1 (R27). -/
def ZF (s : State) : Bool := s.rflags.getLsbD 1

/-- SF of RFLAGS, bit 2 (R27). -/
def SF (s : State) : Bool := s.rflags.getLsbD 2

/-- The next move is `x`, `u` being `s` with that turn used up: the first turn listed, or, when none is, the next
one of the free order of moves (R12, R236, log 11). -/
def Moves (s : State) (x : Turn) (u : State) : Prop :=
  (s.turns = [] ∧ Config.schedule s.moves = x ∧ u = { s with moves := s.moves + 1 }) ∨
    ∃ rest, s.turns = x :: rest ∧ u = { s with turns := rest }

/-- The core moves next, `u` being `s` with that turn used up (R12). -/
def CoreMoves (s u : State) : Prop := Moves s .core u

/-- The core is not halted and takes no interrupt: it fetches (R12, R261). -/
def Fetches (s : State) : Prop := s.halted = false ∧ (0 < s.isrDepth ∨ s.pending = [])

/-- The Register parameters of an instruction, in the order of R90. -/
def regParams (i : Instr) : List RegNum :=
  match i with
  | .add dst src => [dst, src]
  | .sub dst src => [dst, src]
  | .mul dst src => [dst, src]
  | .div dst src => [dst, src]
  | .idiv dst src => [dst, src]
  | .mod dst src => [dst, src]
  | .exp dst src => [dst, src]
  | .expe dst => [dst]
  | .log dst => [dst]
  | .logn dst => [dst]
  | .sqrt dst => [dst]
  | .max dst src => [dst, src]
  | .min dst src => [dst, src]
  | .flr dst => [dst]
  | .ceil dst => [dst]
  | .abs dst => [dst]
  | .sin dst => [dst]
  | .cos dst => [dst]
  | .tan dst => [dst]
  | .asin dst => [dst]
  | .acos dst => [dst]
  | .atan dst => [dst]
  | .rand dst => [dst]
  | .inc dst => [dst]
  | .dec dst => [dst]
  | .cmp v1 v2 => [v1, v2]
  | .and dst src => [dst, src]
  | .or dst src => [dst, src]
  | .xor dst src => [dst, src]
  | .not dst => [dst]
  | .shl dst src => [dst, src]
  | .shr dst src => [dst, src]
  | .test v1 v2 => [v1, v2]
  | .call _ tgt => [tgt]
  | .ret (.inReg r) => [r]
  | .ret .noOperand => []
  | .hlt => []
  | .iret => []
  | .jmp _ tgt => [tgt]
  | .jp _ tgt => [tgt]
  | .jnp _ tgt => [tgt]
  | .jz _ tgt => [tgt]
  | .jnz _ tgt => [tgt]
  | .js _ tgt => [tgt]
  | .jns _ tgt => [tgt]
  | .jl _ tgt => [tgt]
  | .jle _ tgt => [tgt]
  | .jg _ tgt => [tgt]
  | .jge _ tgt => [tgt]
  | .loop _ tgt => [tgt]
  | .push src => [src]
  | .pushf => []
  | .pop dst => [dst]
  | .popf => []
  | .mov dst src => [dst, src]
  | .swp r1 r2 => [r1, r2]
  | .load _ dst => [dst]
  | .strr addr src => [addr, src]
  | .stra addr src => [addr, src]
  | .ldi dst _ => [dst]
  | .rip dst => [dst]
  | .setisrr _ addr => [addr]
  | .setisra _ addr => [addr]
  | .int vec => [vec]
  | .nop => []
  | .inp dst port => [dst, port]
  | .outp src port => [src, port]
  | .inr dst port => [dst, port]
  | .outr dst port => [dst, port]

/-- The Register parameters an instruction may write (files 40 to 47). -/
def destParams (i : Instr) : List RegNum :=
  match i with
  | .add dst _ => [dst]
  | .sub dst _ => [dst]
  | .mul dst _ => [dst]
  | .div dst _ => [dst]
  | .idiv dst _ => [dst]
  | .mod dst _ => [dst]
  | .exp dst _ => [dst]
  | .expe dst => [dst]
  | .log dst => [dst]
  | .logn dst => [dst]
  | .sqrt dst => [dst]
  | .max dst _ => [dst]
  | .min dst _ => [dst]
  | .flr dst => [dst]
  | .ceil dst => [dst]
  | .abs dst => [dst]
  | .sin dst => [dst]
  | .cos dst => [dst]
  | .tan dst => [dst]
  | .asin dst => [dst]
  | .acos dst => [dst]
  | .atan dst => [dst]
  | .rand dst => [dst]
  | .inc dst => [dst]
  | .dec dst => [dst]
  | .cmp _ _ => []
  | .and dst _ => [dst]
  | .or dst _ => [dst]
  | .xor dst _ => [dst]
  | .not dst => [dst]
  | .shl dst _ => [dst]
  | .shr dst _ => [dst]
  | .test _ _ => []
  | .call _ _ => []
  | .ret _ => []
  | .hlt => []
  | .iret => []
  | .jmp _ _ => []
  | .jp _ _ => []
  | .jnp _ _ => []
  | .jz _ _ => []
  | .jnz _ _ => []
  | .js _ _ => []
  | .jns _ _ => []
  | .jl _ _ => []
  | .jle _ _ => []
  | .jg _ _ => []
  | .jge _ _ => []
  | .loop _ _ => []
  | .push _ => []
  | .pushf => []
  | .pop dst => [dst]
  | .popf => []
  | .mov dst _ => [dst]
  | .swp r1 r2 => [r1, r2]
  | .load _ dst => [dst]
  | .strr _ _ => []
  | .stra _ _ => []
  | .ldi dst _ => [dst]
  | .rip dst => [dst]
  | .setisrr _ _ => []
  | .setisra _ _ => []
  | .int _ => []
  | .nop => []
  | .inp dst _ => [dst]
  | .outp _ _ => []
  | .inr dst _ => [dst]
  | .outr dst _ => [dst]

/-- The vectors `i` may enter: the Processor Exceptions it may raise (R259), and for INT the vector it calls
(R218). -/
def mayEnter (i : Instr) (v : Nat) : Prop :=
  match i with
  | .div _ _ | .idiv _ _ | .mod _ _ => v = 3 ∨ v = 0
  | .call _ _ | .jmp _ _ | .jp _ _ | .jnp _ _ | .jz _ _ | .jnz _ _ | .js _ _ | .jns _ _ | .jl _ _
  | .jle _ _ | .jg _ _ | .jge _ _ | .loop _ _ | .push _ | .pop _ | .load _ _ | .strr _ _ | .stra _ _
  | .setisrr _ _ | .setisra _ _ | .ret (.inReg _) => v = 3 ∨ v = 2
  | .ret .noOperand | .iret | .pushf | .popf => v = 2
  | .hlt | .nop => False
  | .int _ => v = 3 ∨ v ≤ 511
  | .inp _ _ | .outp _ _ => v = 3 ∨ v = 5 ∨ v = 4
  | .inr _ _ | .outr _ _ => v = 3 ∨ v = 5
  | .add _ _ | .sub _ _ | .mul _ _ | .exp _ _ | .max _ _ | .min _ _ | .cmp _ _ | .test _ _ | .mov _ _
  | .swp _ _ | .ldi _ _ | .rip _ | .expe _ | .log _ | .logn _ | .sqrt _ | .flr _ | .ceil _ | .abs _
  | .sin _ | .cos _ | .tan _ | .asin _ | .acos _ | .atan _ | .rand _ | .inc _ | .dec _ | .and _ _
  | .or _ _ | .xor _ _ | .not _ | .shl _ _ | .shr _ _ => v = 3

/-- The model faults an instruction may reach (R259), with the read of an unknown cell (log 4). -/
def mayFault (i : Instr) (f : Fault) : Prop :=
  match f with
  | .unsetVector v => mayEnter i v
  | .doubleFault v => mayEnter i v
  | .bitwiseOperandNotInteger =>
    (∃ a b, i = .and a b ∨ i = .or a b ∨ i = .xor a b ∨ i = .shl a b ∨ i = .shr a b) ∨ ∃ a, i = .not a
  | .retCountInvalid => ∃ r, i = .ret (.inReg r)
  | .popfNotFlagsWord => i = .popf
  | .vectorOutOfRange => (∃ v a, i = .setisrr v a ∨ i = .setisra v a) ∨ ∃ r, i = .int r
  | .unwrittenCell _ => (∃ ty r, i = .load ty r) ∨ (∃ r, i = .pop r) ∨ (∃ c, i = .ret c) ∨ i = .popf ∨ i = .iret

/-- CMP, TEST and POPF, the writers of RFLAGS (R29). -/
def writesFlags (i : Instr) : Prop := (∃ a b, i = .cmp a b ∨ i = .test a b) ∨ i = .popf

/-- SETISRR and SETISRA, the writers of the vector table (R30). -/
def writesVectors (i : Instr) : Prop := ∃ v a, i = .setisrr v a ∨ i = .setisra v a

/-- IN and OUT, the instructions that write a port (R35). -/
def writesPorts (i : Instr) : Prop := ∃ a b, i = .inp a b ∨ i = .outp a b

/-- The instructions that store to memory without a trap (R54): a trap stores the return address. -/
def storesToMemory (i : Instr) : Prop :=
  (∃ a b, i = .strr a b ∨ i = .stra a b) ∨ (∃ r, i = .push r) ∨ i = .pushf ∨ (∃ ty r, i = .call ty r)

/-- `a` is the cell `i` stores to when it starts in `s`: the relative or absolute address its Destination holds
for STRR and STRA (R203, R204), the cell below the top of the stack for PUSH, PUSHF and CALL (R190, R167). -/
def StoresAt (i : Instr) (s : State) (a : Int) : Prop :=
  (∃ ty addr src d k, (i = .strr addr src ∧ ty = .relative ∨ i = .stra addr src ∧ ty = .absolute) ∧
    regOf addr = some d ∧ toInt (s.reg d) = some k ∧ a = addressOf ty s k) ∨
  (((∃ r, i = .push r) ∨ i = .pushf ∨ ∃ ty r, i = .call ty r) ∧
    ∃ top, toInt (s.reg .rsp) = some top ∧ a = top - 1)

/-- The instructions that move RSP without naming it (R24). -/
def usesStack (i : Instr) : Prop :=
  (∃ ty r, i = .call ty r) ∨ (∃ c, i = .ret c) ∨ i = .iret ∨ (∃ r, i = .push r) ∨ i = .pushf ∨
    (∃ r, i = .pop r) ∨ i = .popf

end Sys2Proof.Spec


open Sys2Proof Sys2Proof.Machine Sys2Proof.Spec

/-! ## Encoding -/

/-- Decoding the word of a well-formed instruction gives it back (R82, R84, R85, R94): no bit of an
encoding is dropped, whatever the operands. -/
def Obligations.DecodeEncodeRoundTrip : Prop :=
  ∀ i : Instr, i.wellFormed = true → decode (encode i) = .ok i

/-- R93: the decoder ignores the reserved bits 63:24 and every field the format does not use; an assembler
writes them as zero. -/
def Obligations.ReservedAndUnusedBitsIgnored : Prop :=
  (∀ w v : W128, opcodeField w = opcodeField v → firstField w = firstField v → secondField w = secondField v →
    decode w = decode v) ∧
  (∀ w v : W128, opcodeField w = opcodeField v → (opcodeField w).toNat ∈ [35, 36, 50, 52, 63] →
    decode w = decode v) ∧
  (∀ w v : W128, opcodeField w = opcodeField v → firstField w = firstField v →
    (opcodeField w).toNat ∈ [7, 8, 9, 10, 13, 14, 15, 16, 17, 18, 19, 20, 21, 22, 23, 24, 29, 34, 49, 51, 59, 62] →
    decode w = decode v) ∧
  ∀ i : Instr, (encode i).extractLsb' 24 40 = 0#40 ∧
    ((opcodeField (encode i)).toNat ∈ [35, 36, 50, 52, 63] → firstField (encode i) = 0#16) ∧
    ((opcodeField (encode i)).toNat ∈
        [35, 36, 50, 52, 63, 7, 8, 9, 10, 13, 14, 15, 16, 17, 18, 19, 20, 21, 22, 23, 24, 29, 34, 49, 51, 59, 62] →
      secondField (encode i) = 0#64)

/-- R86, R87, R90, R254: a Register parameter names a register exactly for the eight numbers in the First value,
and for the nine binary64 patterns (two of them zero) in the Second value; an assembler writes plus zero for
RAX; and an instruction with a parameter that names none raises InvalidRegister, whichever parameter it is
and whatever the state, before any other effect or exception. -/
def Obligations.InvalidRegisterComesFirst : Prop :=
  (∀ first : BitVec 16, (regOf (regInFirst first)).isSome = true ↔ first.toNat ∈ [0, 1, 2, 3, 4, 5, 8, 9]) ∧
  (∀ n : Nat, regOf (some n) = ([some Reg.rax, some .rbx, some .rcx, some .rdx, some .rpx, some .rvx, none, none,
    some .rsp, some .rbp] : List (Option Reg)).getD n none) ∧
  (∀ second : W64, (regOf (regInSecond second)).isSome = true ↔
    second ∈ [0x0000000000000000#64, 0x8000000000000000#64, 0x3FF0000000000000#64, 0x4000000000000000#64,
      0x4008000000000000#64, 0x4010000000000000#64, 0x4014000000000000#64, 0x4020000000000000#64,
      0x4022000000000000#64]) ∧
  [0x0000000000000000#64, 0x8000000000000000#64, 0x3FF0000000000000#64, 0x4000000000000000#64,
      0x4008000000000000#64, 0x4010000000000000#64, 0x4014000000000000#64, 0x4020000000000000#64,
      0x4022000000000000#64].map regInSecond =
    [some 0, some 0, some 1, some 2, some 3, some 4, some 5, some 8, some 9] ∧
  secondOfReg (some 0) = 0#64 ∧
  (∀ i s, (∃ r ∈ regParams i, regOf r = none) → exec i s = raises s 3) ∧
  ∀ i, regParams i = [] ↔ i ∈ [Instr.hlt, .iret, .pushf, .popf, .nop, .ret .noOperand]

/-- R99: the four worked encodings, each as the word an instruction encodes to and decodes from, and its
two memory cells. -/
def Obligations.WorkedEncodings : Prop :=
  ∀ e ∈ [(Instr.add (some 3) (some 5), 0x40140000000000000000000000000300#128),
      (.ldi (some 0) 0xC010000000000000#64, 0xC010000000000000000000000000003A#128),
      (.jnz .relative (some 3), 0x40080000000000000000000000000029#128),
      (.ret .noOperand, 0x00000000000000000000000000FFFF22#128)],
    encode e.1 = e.2 ∧ decode (ofCells (lowCell e.2) (highCell e.2)) = .ok e.1

/-! ## The step -/

/-- R12: when the core moves and fetches, and the two cells at `pc` hold a word that decodes to `i`, the step
is `i` executed, with IR holding the word (R26) and the core's turn used up. -/
def Obligations.StepRunsDecodedInstruction : Prop :=
  ∀ s u w i, CoreMoves s u → Fetches s → InMem s s.pc → InMem s (s.pc + 1) →
    s.cell s.pc.toNat = some (lowCell w) → s.cell (s.pc + 1).toNat = some (highCell w) →
    decode w = .ok i → step s = exec i { u with ir := w }

/-- An opcode of 68 to 255 raises InvalidOpcode after the fetch, with no other effect, and no other opcode does
(R95). That IR then holds the fetched word (R12, R26) although the step raises is deduced (log 20). -/
def Obligations.IllegalOpcodeRaises : Prop :=
  (∀ w : W128, (∃ i, decode w = .ok i) ↔ (opcodeField w).toNat ≤ 67) ∧
  ∀ s u w, CoreMoves s u → Fetches s → InMem s s.pc → InMem s (s.pc + 1) →
    s.cell s.pc.toNat = some (lowCell w) → s.cell (s.pc + 1).toNat = some (highCell w) →
    68 ≤ (opcodeField w).toNat → step s = raises { u with ir := w } 1

/-- R56, R253: a fetch whose two cells do not both exist raises MemoryOutOfBounds, with IR unchanged
(R26). -/
def Obligations.FetchOutOfBoundsRaises : Prop :=
  ∀ s u, CoreMoves s u → Fetches s → ¬ (InMem s s.pc ∧ InMem s (s.pc + 1)) → step s = raises u 2

/-- R261: when the core moves with no handler running and something pending, halted or not, it removes one
pending vector and enters its handler, the return address being `pc`; while a handler runs the request
stays in `pending`. -/
def Obligations.PendingInterruptIsTaken : Prop :=
  (∀ s u, CoreMoves s u → s.isrDepth = 0 → s.pending ≠ [] →
    ∃ v ∈ s.pending, step s =
      trapEntry { u with pending := s.pending.erase v, draws := s.draws + 1 } v s.pc) ∧
  ∀ s u t, CoreMoves s u → 0 < s.isrDepth → step s = .next t → t.pending = s.pending

/-- R285: a halted core that can take no interrupt executes nothing; halted inside a handler it stays so
for good, whatever the agents do. -/
def Obligations.HaltedCoreExecutesNothing : Prop :=
  (∀ s u, CoreMoves s u → s.halted = true → (0 < s.isrDepth ∨ s.pending = []) → step s = .next u) ∧
  ∀ k s, s.halted = true → 0 < s.isrDepth →
    ∃ t, Host.Core.run core k s = .next t ∧ t.halted = true ∧
      t = { s with pending := t.pending, ports := t.ports, turns := t.turns, moves := t.moves }

/-- R260: a step of IRQ line `k` adds one occurrence of vector `64 + k` to `pending`, and changes nothing
else. -/
def Obligations.IrqLineAddsItsVector : Prop :=
  ∀ s u (k : Fin 64), Moves s (.irq k) u →
    ∃ t, step s = .next t ∧ t = { u with pending := t.pending } ∧
      ∀ v, t.pending.count v = s.pending.count v + if v = 64 + k.val then 1 else 0

/-- R236: what a step of the device of port `p` does, whatever comes after it in the order of moves: it
changes only the inbound latch and the two flags of its own port. -/
def Obligations.DeviceStepChangesItsPortOnly : Prop :=
  ∀ s u (p : Fin 128) (w : W64), Sparse.wf s.ports = true →
    ∀ e ∈ [(Turn.deliver p w, { s.port p.val with inData := w, inReady := true }),
        (.take p, { s.port p.val with outReady := false }),
        (.readyOut p, { s.port p.val with outReady := true }),
        (.withdraw p, { s.port p.val with inReady := false })],
      Moves s e.1 u →
        ∃ t, step s = .next t ∧ t = { u with ports := t.ports } ∧
          t.port p.val = e.2 ∧ ∀ q, q ≠ p.val → t.port q = s.port q

/-- An instruction placed by `withFetchWord` is the one the very next step runs (the model's choice,
log 5). -/
def Obligations.PlacedInstructionRunsNext : Prop :=
  ∀ (s : State) (nbits w : Nat) (i : Instr), decodeTableWord nbits w = some i →
    step (s.withFetchWord nbits w) =
      exec i { s.withFetchWord nbits w with ir := tableWord nbits w, turns := [] }

/-- R37, R301: what reset leaves, of the values the spec gives. -/
def Obligations.ResetState : Prop :=
  (∀ v, State.reset.vector v = none) ∧ State.reset.isrDepth = 0 ∧ State.reset.pending = [] ∧
  State.reset.halted = false ∧ State.reset.rflags >>> 3 = 0#64 ∧
  ∀ p, (State.reset.port p).inReady = false ∧ (State.reset.port p).outReady = false

/-- The invariant of the machine holds at reset (R27, R30, R31, R35, R50). -/
def Obligations.InvariantHoldsAtReset : Prop := Machine.Inv State.reset

/-- Every step keeps the invariant (R27, R30, R31, R35, R50, R51): memory, vector table and ports canonical and
in their ranges, `pending` an ordered bag of IRQ vectors, the reserved flag bits 0. -/
def Obligations.EveryStepKeepsTheInvariant : Prop :=
  ∀ s t, Machine.Inv s → step s = .next t → Machine.Inv t

/-! ## The whole machine -/

/-- Writing a register, a cell, a vector or a port changes what is read there to what was written, and no
other (R7, R22, R50, R30, R35). -/
def Obligations.WritesReadBack : Prop :=
  ∀ s : State,
    (∀ d r w, (s.regs.set d w = (s.setReg d w).regs) ∧ (s.setReg d w).reg r = if r = d then w else s.reg r) ∧
    (∀ a b w, (s.setCell a w).cell b = if b = a then some w else s.cell b) ∧
    (∀ v x h, (s.setVector v h).vector x = if x = v then some h else s.vector x) ∧
    (Sparse.wf s.ports = true → ∀ p q x, (s.setPort p x).port q = if q = p then x else s.port q)

/-- R259, R266, R271: an instruction raises no exception and reaches no model fault but those of its row, and
none is refused; one that enters a handler has done nothing else, the state it leaves being the trap entry of
the state in which it started; and `isr_depth` moves in no other way but IRET's. The read of an unknown cell
is the model's own fault (log 4). -/
def Obligations.OnlyTabledStopsAndPrecise : Prop :=
  ∀ i s, (∀ f, exec i s = .fault f → mayFault i f) ∧ (∀ r, exec i s ≠ .refused r) ∧
    ∀ t, exec i s = .next t →
      t.isrDepth = s.isrDepth ∨ (i = .iret ∧ t.isrDepth = s.isrDepth - 1) ∨
        ∃ v, mayEnter i v ∧ exec i s = raises s v

/-- R29, R30, R35: of the instructions only CMP, TEST and POPF write RFLAGS, only SETISRR and SETISRA the vector
table, only IN and OUT a port; and trap entry writes none of the three. -/
def Obligations.FlagsVectorsAndPortsHaveFewWriters : Prop :=
  (∀ i s t, exec i s = .next t →
    (¬ writesFlags i → t.rflags = s.rflags) ∧ (¬ writesVectors i → t.ivt = s.ivt) ∧
    (¬ writesPorts i → t.ports = s.ports)) ∧
  ∀ s v ret t, trapEntry s v ret = .next t → t.rflags = s.rflags ∧ t.ivt = s.ivt ∧ t.ports = s.ports

/-- R54: where an instruction that goes on changes memory. One that enters a handler stores the address of the
next instruction in the cell below the top of the stack, every other cell being as before (R270). Of one that
does not: a storing instruction has an address to store to, that cell exists, and every other cell is as
before; with any other instruction every cell is as before. -/
def Obligations.AtMostOneCellChanges : Prop :=
  ∀ i s t, exec i s = .next t →
    (s.isrDepth < t.isrDepth → ∃ top, toInt (s.reg .rsp) = some top ∧ InMem s (top - 1) ∧
      StoresOnly s t (top - 1) (ofInt (s.pc + 2))) ∧
    (t.isrDepth ≤ s.isrDepth →
      (∀ a, StoresAt i s a → InMem s a ∧ ∀ b, b ≠ a.toNat → t.cell b = s.cell b) ∧
      (storesToMemory i → ∃ a, StoresAt i s a) ∧
      (¬ storesToMemory i → ∀ b, t.cell b = s.cell b))

/-- R24: an instruction changes no register but those it names as destination, and RSP where it uses the
stack or enters a handler. -/
def Obligations.OnlyNamedRegistersChange : Prop :=
  ∀ i s t, exec i s = .next t → ∀ r, t.reg r ≠ s.reg r →
    some r ∈ (destParams i).map regOf ∨ (r = .rsp ∧ (usesStack i ∨ t.isrDepth = s.isrDepth + 1))

/-- An instruction changes neither IR nor `pending` nor the size of memory (R26, R31, R38), and only HLT halts
(R32, R169), trap entry leaving the halt state (R270). The clauses on `turns` and `moves` are about the model's own
fields (log 11). -/
def Obligations.InstructionsLeaveTheRest : Prop :=
  ∀ i s t, exec i s = .next t →
    t.ir = s.ir ∧ t.pending = s.pending ∧ t.memSize = s.memSize ∧ t.turns = s.turns ∧ t.moves = s.moves ∧
    (t.halted = true → s.halted = true ∨ i = .hlt)

/-- R270, R272, R273: trap entry, all of it. -/
def Obligations.TrapEntry : Prop :=
  ∀ s v ret,
    (s.vector v = none → trapEntry s v ret = .fault (.unsetVector v)) ∧
    ∀ h, s.vector v = some h →
      (toInt (s.reg .rsp) = none → trapEntry s v ret = .fault (.doubleFault v)) ∧
      ∀ top, toInt (s.reg .rsp) = some top →
        (¬ InMem s (top - 1) → trapEntry s v ret = .fault (.doubleFault v)) ∧
        (InMem s (top - 1) → ∃ t, trapEntry s v ret = .next t ∧ StoresOnly s t (top - 1) (ofInt ret) ∧
          t = { s with regs := s.regs.set .rsp (ofInt (top - 1)), isrDepth := s.isrDepth + 1, halted := false,
                       pc := h, mem := t.mem })

/-! ## Numbers -/

/-- R9: `toInt` is defined exactly on the finite words whose number is an integer, and is that integer; by
the fields, exactly on the three cases of the rule. -/
def Obligations.ToIntReadsIntegers : Prop :=
  (∀ w n, toInt w = some n ↔ isFinite w = true ∧ numQ w = n) ∧
  ∀ w, (toInt w).isSome = true ↔
    (expField w = 0 ∧ fracField w = 0) ∨ (1075 ≤ expField w ∧ expField w ≤ 2046) ∨
    (1023 ≤ expField w ∧ expField w ≤ 1074 ∧ ∀ k, k < 1075 - expField w → (fracField w).testBit k = false)

/-- R10: `ofInt` rounds to nearest, ties to even, and 0 becomes `+0`; `rnd` does the same to every rational,
a zero result being `+0`; integers up to 2^53 survive. -/
def Obligations.OfIntRoundsToNearest : Prop :=
  (∀ n : Int, RoundsTo n (ofInt n)) ∧ ofInt 0 = 0#64 ∧
  (∀ (n : Int) (d : Nat), 0 < d →
    RoundsTo ((n : ℚ) / d) (rndInt n d) ∧ (isZero (rndInt n d) = true → rndInt n d = 0#64)) ∧
  ∀ n : Int, |n| ≤ 2 ^ 53 → numQ (ofInt n) = n ∧ toInt (ofInt n) = some n

/-- R28: the flag function, by the number of the result. -/
def Obligations.FlagFunction : Prop :=
  ∀ r, ((flagsOf r).zf = true ↔ isZero r = true) ∧
    ((flagsOf r).sf = true ↔ isNaN r = false ∧ numBelow r 0#64) ∧
    ((flagsOf r).pf = true ↔ isFinite r = true ∧ ∃ k : Int, numQ r / 2 = k)

/-- R111, of `add` and `sub`: the exact sum rounded once; the sign of a zero sum; infinities and NaNs. -/
def Obligations.AddAndSubRoundOnce : Prop :=
  (∀ a b, isNaN a = true ∨ isNaN b = true → numAdd a b = .nan) ∧
  (∀ a b, isFinite a = true → isFinite b = true →
    RoundedResult (numAdd a b) (numQ a + numQ b) (decide (a = negZero ∧ b = negZero))) ∧
  (∀ a b, isInf a = true → isFinite b = true → numAdd a b = .word a ∧ numAdd b a = .word a) ∧
  (∀ a b, isInf a = true → isInf b = true →
    numAdd a b = if signBit a = signBit b then .word a else .nan) ∧
  ∀ a b c, signBit c = !signBit b → expField c = expField b → fracField c = fracField b →
    numSub a b = numAdd a c

/-- R111, of `mul` and `div`: the exact product or quotient rounded once, every zero and infinity with the
exclusive-or of the signs; infinities and NaNs. -/
def Obligations.MulAndDivRoundOnce : Prop :=
  (∀ a b, isNaN a = true ∨ isNaN b = true → numMul a b = .nan ∧ numDiv a b = .nan) ∧
  (∀ a b, isFinite a = true → isFinite b = true →
    RoundedResult (numMul a b) (numQ a * numQ b) (signBit a ^^ signBit b)) ∧
  (∀ a b, isFinite a = true → isFinite b = true → isZero b = false →
    RoundedResult (numDiv a b) (numQ a / numQ b) (signBit a ^^ signBit b)) ∧
  (∀ a b, isInf a = true → isZero b = true → numMul a b = .nan ∧ numMul b a = .nan) ∧
  (∀ a b, isInf a = true → isNaN b = false → isZero b = false →
    numMul a b = .word (infWord (signBit a ^^ signBit b)) ∧
    numMul b a = .word (infWord (signBit a ^^ signBit b))) ∧
  (∀ a b, isInf a = true → isInf b = true → numDiv a b = .nan) ∧
  (∀ a b, isInf a = true → isFinite b = true → isZero b = false →
    numDiv a b = .word (infWord (signBit a ^^ signBit b))) ∧
  ∀ a b, isFinite a = true → isInf b = true →
    ∃ w, numDiv a b = .word w ∧ isZero w = true ∧ signBit w = (signBit a ^^ signBit b)

/-- R111, of `sqrt`: the real square root rounded once, the special operands. -/
def Obligations.SqrtRoundsOnce : Prop :=
  (∀ a, isNaN a = true → numSqrt a = .nan) ∧
  (∀ a, isZero a = true → numSqrt a = .word a) ∧
  (∀ a, isZero a = false → isNaN a = false → signBit a = true → numSqrt a = .nan) ∧
  (∀ a, isInf a = true → signBit a = false → numSqrt a = .word a) ∧
  ∀ a, isFinite a = true → isZero a = false → signBit a = false →
    ∃ w, numSqrt a = .word w ∧ isFinite w = true ∧
      (∀ v, isFinite v = true →
        |((numQ w : ℚ) : ℝ) - Real.sqrt (numQ a : ℚ)| ≤ |((numQ v : ℚ) : ℝ) - Real.sqrt (numQ a : ℚ)|) ∧
      (∀ v, isFinite v = true → numQ v ≠ numQ w →
        |((numQ v : ℚ) : ℝ) - Real.sqrt (numQ a : ℚ)| = |((numQ w : ℚ) : ℝ) - Real.sqrt (numQ a : ℚ)| →
        fracField w % 2 = 0)

/-- R112: floor division and the remainder that goes with it. For a Destination that is a zero and an
infinite Source the rule says both `mod = a` and that a zero result is `+0`; the model answers `+0`
(log 13). -/
def Obligations.FloorDivisionAndModulo : Prop :=
  (∀ a b, isZero b = false → isNaN a = true ∨ isNaN b = true ∨ isInf a = true →
    numFloorDiv a b = .nan ∧ numMod a b = .nan) ∧
  (∀ a b, isFinite a = true → isInf b = true →
    ((isZero a = true → numFloorDiv a b = .word 0#64 ∧ numMod a b = .word 0#64) ∧
      (isZero a = false → signBit a = signBit b → numFloorDiv a b = .word 0#64 ∧ numMod a b = .word a) ∧
      (isZero a = false → signBit a ≠ signBit b → numFloorDiv a b = .word minusOne ∧ numMod a b = .word b))) ∧
  ∀ a b, isFinite a = true → isFinite b = true → isZero b = false →
    RoundedResult (numFloorDiv a b) (⌊numQ a / numQ b⌋ : Int) false ∧
    RoundedResult (numMod a b) (numQ a - numQ b * (⌊numQ a / numQ b⌋ : Int)) false

/-- R113: the five exact functions. -/
def Obligations.MaxMinFloorCeilAbsAreExact : Prop :=
  (∀ a b, (isNaN a = false ∧ isNaN b = false ∧ numBelow a b → numMax a b = .word b) ∧
    (¬ (isNaN a = false ∧ isNaN b = false ∧ numBelow a b) → numMax a b = .word a) ∧
    (isNaN a = false ∧ isNaN b = false ∧ numBelow b a → numMin a b = .word b) ∧
    (¬ (isNaN a = false ∧ isNaN b = false ∧ numBelow b a) → numMin a b = .word a)) ∧
  (∀ a, isFinite a = false ∨ isZero a = true → numFloor a = .word a ∧ numCeil a = .word a) ∧
  (∀ a, isFinite a = true → isZero a = false →
    (∃ w, numFloor a = .word w ∧ isFinite w = true ∧ numQ w = (⌊numQ a⌋ : Int) ∧
      (isZero w = true → signBit w = false)) ∧
    ∃ w, numCeil a = .word w ∧ isFinite w = true ∧ numQ w = (⌈numQ a⌉ : Int) ∧
      (isZero w = true → signBit w = signBit a)) ∧
  ∀ a, ∃ w, numAbs a = .word w ∧ signBit w = false ∧ expField w = expField a ∧ fracField w = fracField a

/-- The difference of two finite words tells their order: after CMP, ZF says that they are equal and SF that
Value2 is less than Value1 (R143, R144); no difference of distinct numbers rounds to zero. -/
def Obligations.CompareDecidesTheOrder : Prop :=
  ∀ s v1 v2 a b, regOf v1 = some a → regOf v2 = some b →
    isFinite (s.reg a) = true → isFinite (s.reg b) = true →
    ∃ t, exec (.cmp v1 v2) s = .next t ∧ (ZF t = true ↔ numQ (s.reg b) = numQ (s.reg a)) ∧
      (SF t = true ↔ numQ (s.reg b) < numQ (s.reg a))

/-! ## The instructions: Math and Bitwise -/

/-- ADD, SUB, MUL, EXP, MAX, MIN (R118, R119, R120, R124, R129, R130): the Destination becomes `N.f` of the two
registers and nothing else changes. -/
def Obligations.TwoRegisterMath : Prop :=
  MathRR 0 .add numAdd ∧ MathRR 1 .sub numSub ∧ MathRR 2 .mul numMul ∧
  MathRR 6 .exp (fun a b => .word (Config.pow a b)) ∧ MathRR 11 .max numMax ∧ MathRR 12 .min numMin

/-- The one-register Math instructions but RAND: SQRT, FLR, CEIL, ABS, INC, DEC (R128, R131 to R133, R141,
R142). -/
def Obligations.OneRegisterMath : Prop :=
  MathR 10 .sqrt numSqrt ∧ MathR 13 .flr numFloor ∧ MathR 14 .ceil numCeil ∧ MathR 15 .abs numAbs ∧
  MathR 23 .inc (fun a => numAdd a 0x3FF0000000000000#64) ∧
  MathR 24 .dec (fun a => numSub a 0x3FF0000000000000#64)

/-- The OPEN functions (R114, R125 to R127, R134 to R139): each instruction completes with some word that
depends on the operand alone, for EXPE the power of the operand to the constant E. -/
def Obligations.OpenFunctionsComplete : Prop :=
  MathR 7 .expe (fun a => .word (Config.pow a 0x4005BF0A8B145769#64)) ∧
  MathR 8 .log (fun a => .word (Config.log10 a)) ∧ MathR 9 .logn (fun a => .word (Config.ln a)) ∧
  MathR 16 .sin (fun a => .word (Config.sin a)) ∧ MathR 17 .cos (fun a => .word (Config.cos a)) ∧
  MathR 18 .tan (fun a => .word (Config.tan a)) ∧ MathR 19 .asin (fun a => .word (Config.asin a)) ∧
  MathR 20 .acos (fun a => .word (Config.acos a)) ∧ MathR 21 .atan (fun a => .word (Config.atan a))

/-- RAND (R115, R140): the Destination becomes some word of `S` of its old value, whatever the draw. -/
def Obligations.RandDrawsFromItsSet : Prop :=
  Encoded 22 (fun a _ => .rand (regInFirst a)) ∧
  ∀ s dst, (regOf dst = none → exec (.rand dst) s = raises s 3) ∧
    ∀ d, regOf dst = some d → ∃ t, exec (.rand dst) s = .next t ∧ inS (s.reg d) (t.reg d) ∧
      t = { s with regs := s.regs.set d (t.reg d), pc := s.pc + 2, draws := t.draws }

/-- DIV, IDIV, MOD (R117, R121, R122, R123): a zero Source raises DivideByZero and changes nothing; else the
Destination becomes the quotient, the floored quotient, the remainder. -/
def Obligations.DivisionInstructions : Prop :=
  Division 3 .div numDiv ∧ Division 4 .idiv numFloorDiv ∧ Division 5 .mod numMod

/-- CMP subtracts Value1 from Value2 (R143), TEST Value2 from Value1 (R157); both write all three flags and
nothing else. -/
def Obligations.CompareAndTest : Prop :=
  ComparesBy 25 .cmp (fun a b => numSub b a) ∧ ComparesBy 32 .test numSub

/-- AND, OR, XOR, SHL, SHR and NOT on the integers of the operands, with no width (R150 to R156): the first
three bit by bit on two's complement, SHL multiplies by a power of two, SHR floors; an operand that is no
integer, or a negative count, is the model fault. -/
def Obligations.BitwiseInstructions : Prop :=
  (∀ m n : Int, ∀ k : Nat,
    (intAnd m n).testBit k = (m.testBit k && n.testBit k) ∧
    (intOr m n).testBit k = (m.testBit k || n.testBit k) ∧
    (intXor m n).testBit k = (m.testBit k ^^ n.testBit k)) ∧
  BitwiseRR 26 .and ⟨intAnd, fun _ => True⟩ ∧ BitwiseRR 27 .or ⟨intOr, fun _ => True⟩ ∧
  BitwiseRR 28 .xor ⟨intXor, fun _ => True⟩ ∧
  BitwiseRR 30 .shl ⟨fun m n => m * 2 ^ n.toNat, fun n => 0 ≤ n⟩ ∧
  BitwiseRR 31 .shr ⟨fun m n => ⌊(m : ℚ) / 2 ^ n.toNat⌋, fun n => 0 ≤ n⟩ ∧
  Encoded 29 (fun a _ => .not (regInFirst a)) ∧
  ∀ s dst, (regOf dst = none → exec (.not dst) s = raises s 3) ∧
    ∀ d, regOf dst = some d →
      (toInt (s.reg d) = none → exec (.not dst) s = .fault .bitwiseOperandNotInteger) ∧
      ∀ m, toInt (s.reg d) = some m →
        exec (.not dst) s = .next { s with regs := s.regs.set d (ofInt (-m - 1)), pc := s.pc + 2 }

/-! ## The instructions: control flow and the stack -/

/-- JMP (R171) and LOOP, taken when RCX is neither `+0` nor `-0` and changing no register (R182), by the
target of R165. -/
def Obligations.JumpAndLoop : Prop :=
  TypeSelector ∧ JumpWhen 37 .jmp (fun _ => true) ∧ JumpWhen 48 .loop (fun s => !isZero (s.reg .rcx))

/-- The ten conditional jumps (R166, R172 to R181), by the flags each is taken on. -/
def Obligations.ConditionalJumps : Prop :=
  TypeSelector ∧ JumpWhen 38 .jp PF ∧ JumpWhen 39 .jnp (fun s => !PF s) ∧ JumpWhen 40 .jz ZF ∧
  JumpWhen 41 .jnz (fun s => !ZF s) ∧ JumpWhen 42 .js SF ∧ JumpWhen 43 .jns (fun s => !SF s) ∧
  JumpWhen 44 .jl SF ∧ JumpWhen 45 .jle (fun s => SF s || ZF s) ∧
  JumpWhen 46 .jg (fun s => !SF s && !ZF s) ∧ JumpWhen 47 .jge (fun s => !SF s)

/-- CALL (R167): the target is computed, then the address of the next instruction is pushed, then `pc` is the
target; any failure changes nothing. -/
def Obligations.CallPushesTheNextAddress : Prop :=
  TypeSelector ∧ Encoded 33 (fun a b => .call (typeInFirst a) (regInSecond b)) ∧
  ∀ s ty tgt,
    (regOf tgt = none → exec (.call ty tgt) s = raises s 3) ∧
    ∀ r, regOf tgt = some r →
      (toInt (s.reg r) = none ∨ toInt (s.reg .rsp) = none → exec (.call ty tgt) s = raises s 2) ∧
      ∀ k top, toInt (s.reg r) = some k → toInt (s.reg .rsp) = some top →
        (¬ InMem s (top - 1) → exec (.call ty tgt) s = raises s 2) ∧
        (InMem s (top - 1) → ∃ t, exec (.call ty tgt) s = .next t ∧
          StoresOnly s t (top - 1) (ofInt (s.pc + 2)) ∧
          t = { s with regs := s.regs.set .rsp (ofInt (top - 1)), pc := addressOf ty s k, mem := t.mem })

/-- RET (R168): the count comes first; then the word on top of the stack becomes `pc`, and RSP moves past it
and `n` more cells, which are not read. -/
def Obligations.RetPopsAndSkips : Prop :=
  Encoded 34 (fun a _ => .ret (if a.toNat = 0xFFFF then .noOperand else .inReg (some a.toNat))) ∧
  (∀ s r, regOf r = none → exec (.ret (.inReg r)) s = raises s 3) ∧
  (∀ s r x, regOf r = some x → (toInt (s.reg x) = none ∨ ∃ n, toInt (s.reg x) = some n ∧ n < 0) →
    exec (.ret (.inReg r)) s = .fault .retCountInvalid) ∧
  ∀ s c n, (c = .noOperand ∧ n = 0 ∨
      ∃ r x, c = .inReg r ∧ regOf r = some x ∧ toInt (s.reg x) = some n ∧ 0 ≤ n) →
    (toInt (s.reg .rsp) = none → exec (.ret c) s = raises s 2) ∧
    ∀ top, toInt (s.reg .rsp) = some top →
      (¬ InMem s top → exec (.ret c) s = raises s 2) ∧
      ∀ w, InMem s top → s.cell top.toNat = some w →
        (toInt w = none → exec (.ret c) s = raises s 2) ∧
        ∀ k, toInt w = some k →
          exec (.ret c) s = .next { s with regs := s.regs.set .rsp (ofInt (top + 1 + n)), pc := k }

/-- HLT (R169) enters the halt state and advances, NOP (R225) advances; what a halted core does is
HaltedCoreExecutesNothing. -/
def Obligations.HaltAndNop : Prop :=
  Encoded 35 (fun _ _ => .hlt) ∧ Encoded 63 (fun _ _ => .nop) ∧
  ∀ s, exec .hlt s = .next { s with halted := true, pc := s.pc + 2 } ∧
    exec .nop s = .next { s with pc := s.pc + 2 }

/-- IRET (R170, R280): pops the return address into `pc` and lowers `isr_depth`, not below 0; it restores
nothing else. -/
def Obligations.IretReturns : Prop :=
  Encoded 36 (fun _ _ => .iret) ∧
  ∀ s, (toInt (s.reg .rsp) = none → exec .iret s = raises s 2) ∧
    ∀ top, toInt (s.reg .rsp) = some top →
      (¬ InMem s top → exec .iret s = raises s 2) ∧
      ∀ w, InMem s top → s.cell top.toNat = some w →
        (toInt w = none → exec .iret s = raises s 2) ∧
        ∀ k, toInt w = some k → exec .iret s =
          .next { s with regs := s.regs.set .rsp (ofInt (top + 1)), pc := k,
                         isrDepth := if 0 < s.isrDepth then s.isrDepth - 1 else 0 }

/-- PUSH (R192) and PUSHF (R193), with the stack of R190: the word goes to the cell below the top, then RSP
moves; PUSHF's word is the number whose bits are the flags. -/
def Obligations.PushAndPushf : Prop :=
  Encoded 49 (fun a _ => .push (regInFirst a)) ∧ Encoded 50 (fun _ _ => .pushf) ∧
  (∀ s src, regOf src = none → exec (.push src) s = raises s 3) ∧
  ∀ s i w, (i = .pushf ∧ w = ofInt ((PF s).toNat + 2 * (ZF s).toNat + 4 * (SF s).toNat : Nat) ∨
      ∃ src r, i = .push src ∧ regOf src = some r ∧ w = s.reg r) →
    (toInt (s.reg .rsp) = none → exec i s = raises s 2) ∧
    ∀ top, toInt (s.reg .rsp) = some top →
      (¬ InMem s (top - 1) → exec i s = raises s 2) ∧
      (InMem s (top - 1) → ∃ t, exec i s = .next t ∧ StoresOnly s t (top - 1) w ∧
        t = { s with regs := s.regs.set .rsp (ofInt (top - 1)), pc := s.pc + 2, mem := t.mem })

/-- POP (R194), with the stack of R191: the destination is written after RSP, so `POP RSP` ends with the popped
word. -/
def Obligations.PopReadsTheTop : Prop :=
  Encoded 51 (fun a _ => .pop (regInFirst a)) ∧
  ∀ s dst, (regOf dst = none → exec (.pop dst) s = raises s 3) ∧
    ∀ d, regOf dst = some d →
      (toInt (s.reg .rsp) = none → exec (.pop dst) s = raises s 2) ∧
      ∀ top, toInt (s.reg .rsp) = some top →
        (¬ InMem s top → exec (.pop dst) s = raises s 2) ∧
        ∀ w, InMem s top → s.cell top.toNat = some w → exec (.pop dst) s =
          .next { s with regs := (s.regs.set .rsp (ofInt (top + 1))).set d w, pc := s.pc + 2 }

/-- POPF (R195): bits 0, 1, 2 of the popped non-negative integer become PF, ZF, SF; any other word is the
model fault. -/
def Obligations.PopfTakesTheFlags : Prop :=
  Encoded 52 (fun _ _ => .popf) ∧
  ∀ s, (toInt (s.reg .rsp) = none → exec .popf s = raises s 2) ∧
    ∀ top, toInt (s.reg .rsp) = some top →
      (¬ InMem s top → exec .popf s = raises s 2) ∧
      ∀ w, InMem s top → s.cell top.toNat = some w →
        ((toInt w = none ∨ ∃ n, toInt w = some n ∧ n < 0) → exec .popf s = .fault .popfNotFlagsWord) ∧
        ∀ n, toInt w = some n → 0 ≤ n → ∃ t, exec .popf s = .next t ∧
          t = { s with regs := s.regs.set .rsp (ofInt (top + 1)), rflags := t.rflags, pc := s.pc + 2 } ∧
          (PF t = true ↔ n % 2 = 1) ∧ (ZF t = true ↔ n / 2 % 2 = 1) ∧ (SF t = true ↔ n / 4 % 2 = 1) ∧
          t.rflags >>> 3 = 0#64

/-! ## The instructions: Data, Interrupt and IO -/

/-- MOV (R200), SWP (R201), LDI (R205), RIP (R206). -/
def Obligations.RegisterMoves : Prop :=
  Encoded 53 (fun a b => .mov (regInFirst a) (regInSecond b)) ∧
  Encoded 54 (fun a b => .swp (regInFirst a) (regInSecond b)) ∧
  Encoded 58 (fun a b => .ldi (regInFirst a) b) ∧ Encoded 59 (fun a _ => .rip (regInFirst a)) ∧
  (∀ s x y, regOf x = none ∨ regOf y = none →
    exec (.mov x y) s = raises s 3 ∧ exec (.swp x y) s = raises s 3) ∧
  (∀ s x imm, regOf x = none → exec (.ldi x imm) s = raises s 3 ∧ exec (.rip x) s = raises s 3) ∧
  (∀ s x y d r, regOf x = some d → regOf y = some r →
    exec (.mov x y) s = .next { s with regs := s.regs.set d (s.reg r), pc := s.pc + 2 } ∧
    ∃ t, exec (.swp x y) s = .next t ∧ t.reg d = s.reg r ∧ t.reg r = s.reg d ∧
      t = { s with regs := (s.regs.set d (s.reg r)).set r (s.reg d), pc := s.pc + 2 }) ∧
  ∀ s x imm d, regOf x = some d →
    exec (.ldi x imm) s = .next { s with regs := s.regs.set d imm, pc := s.pc + 2 } ∧
    exec (.rip x) s = .next { s with regs := s.regs.set d (ofInt s.pc), pc := s.pc + 2 }

/-- LOAD (R202): one register is both the address and the destination. -/
def Obligations.LoadReadsOneCell : Prop :=
  TypeSelector ∧ Encoded 55 (fun a b => .load (typeInFirst a) (regInSecond b)) ∧
  ∀ s ty dst, (regOf dst = none → exec (.load ty dst) s = raises s 3) ∧
    ∀ d, regOf dst = some d →
      (toInt (s.reg d) = none → exec (.load ty dst) s = raises s 2) ∧
      ∀ k, toInt (s.reg d) = some k →
        (¬ InMem s (addressOf ty s k) → exec (.load ty dst) s = raises s 2) ∧
        ∀ w, InMem s (addressOf ty s k) → s.cell (addressOf ty s k).toNat = some w →
          exec (.load ty dst) s = .next { s with regs := s.regs.set d w, pc := s.pc + 2 }

/-- STRR (R203) and STRA (R204): the word of the Source goes to the cell whose address, relative or absolute,
the Destination holds; no register changes. -/
def Obligations.StoresWriteOneCell : Prop :=
  Encoded 56 (fun a b => .strr (regInFirst a) (regInSecond b)) ∧
  Encoded 57 (fun a b => .stra (regInFirst a) (regInSecond b)) ∧
  ∀ s i ty addr src, (i = .strr addr src ∧ ty = .relative ∨ i = .stra addr src ∧ ty = .absolute) →
    (regOf addr = none ∨ regOf src = none → exec i s = raises s 3) ∧
    ∀ d r, regOf addr = some d → regOf src = some r →
      (toInt (s.reg d) = none → exec i s = raises s 2) ∧
      ∀ k, toInt (s.reg d) = some k →
        (¬ InMem s (addressOf ty s k) → exec i s = raises s 2) ∧
        (InMem s (addressOf ty s k) → ∃ t, exec i s = .next t ∧
          StoresOnly s t (addressOf ty s k) (s.reg r) ∧ t = { s with pc := s.pc + 2, mem := t.mem })

/-- SETISRR (R216) and SETISRA (R217): the entry holds the address resolved now; a vector above 511 is the
model fault of R215. -/
def Obligations.SetIsrWritesOneEntry : Prop :=
  Encoded 60 (fun a b => .setisrr a (regInSecond b)) ∧ Encoded 61 (fun a b => .setisra a (regInSecond b)) ∧
  ∀ s i ty (v : BitVec 16) addr,
    (i = .setisrr v addr ∧ ty = .relative ∨ i = .setisra v addr ∧ ty = .absolute) →
    (regOf addr = none → exec i s = raises s 3) ∧
    ∀ r, regOf addr = some r →
      (511 < v.toNat → exec i s = .fault .vectorOutOfRange) ∧
      (v.toNat ≤ 511 → toInt (s.reg r) = none → exec i s = raises s 2) ∧
      ∀ k, v.toNat ≤ 511 → toInt (s.reg r) = some k → ∃ t, exec i s = .next t ∧
        t = { s with pc := s.pc + 2, ivt := t.ivt } ∧ t.vector v.toNat = some (addressOf ty s k) ∧
        ∀ x, x ≠ v.toNat → t.vector x = s.vector x

/-- INT (R218): the vector the register holds is entered with the next address, at any `isr_depth`; outside
0 to 511 it is the model fault of R215, and so are the two of trap entry. -/
def Obligations.IntEntersTheHandler : Prop :=
  Encoded 62 (fun a _ => .int (regInFirst a)) ∧
  ∀ s vec, (regOf vec = none → exec (.int vec) s = raises s 3) ∧
    ∀ r, regOf vec = some r →
      (¬ (∃ n, toInt (s.reg r) = some n ∧ 0 ≤ n ∧ n ≤ 511) → exec (.int vec) s = .fault .vectorOutOfRange) ∧
      ∀ v : Nat, toInt (s.reg r) = some (v : Int) → v ≤ 511 →
        exec (.int vec) s = trapEntry s v (s.pc + 2) ∧
        ∀ h top, s.vector v = some h → toInt (s.reg .rsp) = some top → InMem s (top - 1) →
          ∃ t, exec (.int vec) s = .next t ∧ StoresOnly s t (top - 1) (ofInt (s.pc + 2)) ∧
            t = { s with regs := s.regs.set .rsp (ofInt (top - 1)), isrDepth := s.isrDepth + 1, halted := false,
                         pc := h, mem := t.mem }

/-- IN (R231) and OUT (R232): the port number, then the ready flag, then the transfer; nothing else of the port
and no other port changes. -/
def Obligations.InAndOutMoveOneWord : Prop :=
  Encoded 64 (fun a b => .inp (regInFirst a) (regInSecond b)) ∧
  Encoded 65 (fun a b => .outp (regInFirst a) (regInSecond b)) ∧
  (∀ s x y, regOf x = none ∨ regOf y = none →
    exec (.inp x y) s = raises s 3 ∧ exec (.outp x y) s = raises s 3) ∧
  (∀ s x y d q, regOf x = some d → regOf y = some q →
    ¬ (∃ n, toInt (s.reg q) = some n ∧ 0 ≤ n ∧ n ≤ 127) →
    exec (.inp x y) s = raises s 5 ∧ exec (.outp x y) s = raises s 5) ∧
  ∀ s x y d q, ∀ p : Nat, Sparse.wf s.ports = true → regOf x = some d → regOf y = some q →
    toInt (s.reg q) = some (p : Int) → p ≤ 127 →
    ((s.port p).inReady = false → exec (.inp x y) s = raises s 4) ∧
    ((s.port p).outReady = false → exec (.outp x y) s = raises s 4) ∧
    ((s.port p).inReady = true → ∃ t, exec (.inp x y) s = .next t ∧
      t = { s with regs := s.regs.set d (s.port p).inData, pc := s.pc + 2, ports := t.ports } ∧
      t.port p = { s.port p with inReady := false } ∧ ∀ o, o ≠ p → t.port o = s.port o) ∧
    ((s.port p).outReady = true → ∃ t, exec (.outp x y) s = .next t ∧
      t = { s with pc := s.pc + 2, ports := t.ports } ∧
      t.port p = { s.port p with outData := s.reg d, outReady := true } ∧ ∀ o, o ≠ p → t.port o = s.port o)

/-- INR (R233) and OUTR (R234): the flag as the number 0 or 1; no port changes. -/
def Obligations.InrAndOutrReadTheFlags : Prop :=
  Encoded 66 (fun a b => .inr (regInFirst a) (regInSecond b)) ∧
  Encoded 67 (fun a b => .outr (regInFirst a) (regInSecond b)) ∧
  (∀ s x y, regOf x = none ∨ regOf y = none →
    exec (.inr x y) s = raises s 3 ∧ exec (.outr x y) s = raises s 3) ∧
  ∀ s x y d q, regOf x = some d → regOf y = some q →
    (¬ (∃ n, toInt (s.reg q) = some n ∧ 0 ≤ n ∧ n ≤ 127) →
      exec (.inr x y) s = raises s 5 ∧ exec (.outr x y) s = raises s 5) ∧
    ∀ p : Nat, toInt (s.reg q) = some (p : Int) → p ≤ 127 →
      exec (.inr x y) s = .next { s with
        regs := s.regs.set d (if (s.port p).inReady then 0x3FF0000000000000#64 else 0#64), pc := s.pc + 2 } ∧
      exec (.outr x y) s = .next { s with
        regs := s.regs.set d (if (s.port p).outReady then 0x3FF0000000000000#64 else 0#64), pc := s.pc + 2 }

/-! ## Two instructions together, and the model's own fault -/

/-- CALL, then RET without operand: `pc` is the address after the CALL, and every register is as before, RSP as
the number it was (R167, R168). -/
def Obligations.RetUndoesCall : Prop :=
  ∀ s ty tgt t, s.memSize ≤ 2 ^ 53 → |s.pc + 2| ≤ 2 ^ 53 → exec (.call ty tgt) s = .next t →
    t.isrDepth = s.isrDepth →
    ∃ u, exec (.ret .noOperand) t = .next u ∧ u.pc = s.pc + 2 ∧ u.rflags = s.rflags ∧
      toInt (u.reg .rsp) = toInt (s.reg .rsp) ∧ ∀ r, r ≠ .rsp → u.reg r = s.reg r

/-- Trap entry, then IRET: back at the return address, with `isr_depth`, the flags and every register as
before (R270, R280). -/
def Obligations.IretUndoesTrapEntry : Prop :=
  ∀ s v ret t, s.memSize ≤ 2 ^ 53 → |ret| ≤ 2 ^ 53 → trapEntry s v ret = .next t →
    ∃ u, exec .iret t = .next u ∧ u.pc = ret ∧ u.isrDepth = s.isrDepth ∧ u.rflags = s.rflags ∧
      toInt (u.reg .rsp) = toInt (s.reg .rsp) ∧ ∀ r, r ≠ .rsp → u.reg r = s.reg r

/-- PUSHF, then POPF from whatever flags: the flags are as before (R193, R195). -/
def Obligations.PopfUndoesPushf : Prop :=
  ∀ (s t : State) (f : Flags), s.memSize ≤ 2 ^ 53 → s.rflags >>> 3 = 0#64 → exec .pushf s = .next t → t.isrDepth = s.isrDepth →
    ∃ u, exec .popf (t.setFlags f) = .next u ∧ u.rflags = s.rflags ∧
      toInt (u.reg .rsp) = toInt (s.reg .rsp) ∧ ∀ r, r ≠ .rsp → u.reg r = s.reg r

/-- STRA, then LOAD from the same address: the word stored (R61). -/
def Obligations.LoadReturnsTheLastStore : Prop :=
  ∀ s addr src d r t, regOf addr = some d → regOf src = some r → exec (.stra addr src) s = .next t →
    t.isrDepth = s.isrDepth →
    ∃ u, exec (.load .absolute addr) t = .next u ∧ u.reg d = s.reg r

/-- A read of a cell that nothing has written is the fault `unwrittenCell` of that cell, in every instruction
that reads memory (the model's choice where the spec leaves memory unspecified, log 4). -/
def Obligations.UnwrittenCellsFault : Prop :=
  (∀ s ty dst d k, regOf dst = some d → toInt (s.reg d) = some k → InMem s (addressOf ty s k) →
    s.cell (addressOf ty s k).toNat = none →
    exec (.load ty dst) s = .fault (.unwrittenCell (addressOf ty s k).toNat)) ∧
  ∀ s top, toInt (s.reg .rsp) = some top → InMem s top → s.cell top.toNat = none →
    exec .iret s = .fault (.unwrittenCell top.toNat) ∧ exec .popf s = .fault (.unwrittenCell top.toNat) ∧
    exec (.ret .noOperand) s = .fault (.unwrittenCell top.toNat) ∧
    ∀ dst d, regOf dst = some d → exec (.pop dst) s = .fault (.unwrittenCell top.toNat)

/-- A run that has ended stays so, whatever moves follow (R286): the core is halted, and a handler runs or nothing
is pending and no IRQ source will ever act; then nothing but the ports, the bag of waiting interrupts and whose
turn it is can change. -/
def Obligations.EndedRunStaysEnded : Prop :=
  ∀ k s, Safety.Ended s → ∃ t, Host.Core.run core k s = .next t ∧ Safety.Ended t ∧
    t = { s with pending := t.pending, ports := t.ports, turns := t.turns, moves := t.moves }
end

