-- ==== Sys2Proof/Laws/Sparse.lean ====
section
/-! SUPPORT. The laws of the canonical maps: read after write, and that every operation keeps the canonical
form and the range of the keys. -/

namespace Sys2Proof.Machine

variable {α : Type}

@[simp] theorem lookup_nil (a : Nat) : Sparse.lookup ([] : Sparse α) a = none := rfl

@[simp] theorem lookup_insert_self (m : Sparse α) (a : Nat) (v : α) :
    Sparse.lookup (Sparse.insert m a v) a = some v := by
  induction m with
  | nil => simp [Sparse.insert, Sparse.lookup]
  | cons e rest ih =>
    obtain ⟨k, u⟩ := e
    simp only [Sparse.insert]
    split
    · simp [Sparse.lookup]
    · split
      · simp [Sparse.lookup]
      · rename_i h1 h2
        simp [Sparse.lookup, Ne.symm h2, ih]

theorem lookup_insert_ne (m : Sparse α) {a b : Nat} (v : α) (h : b ≠ a) :
    Sparse.lookup (Sparse.insert m a v) b = Sparse.lookup m b := by
  induction m with
  | nil => simp [Sparse.insert, Sparse.lookup, Ne.symm h]
  | cons e rest ih =>
    obtain ⟨k, u⟩ := e
    simp only [Sparse.insert]
    split
    · simp [Sparse.lookup, Ne.symm h]
    · split
      · subst_vars; simp [Sparse.lookup, Ne.symm h]
      · simp [Sparse.lookup, ih]

theorem lookup_insert (m : Sparse α) (a b : Nat) (v : α) :
    Sparse.lookup (Sparse.insert m a v) b = if b = a then some v else Sparse.lookup m b := by
  split
  · subst_vars; simp
  · exact lookup_insert_ne m v ‹_›

theorem lookup_erase_ne (m : Sparse α) {a b : Nat} (h : b ≠ a) :
    Sparse.lookup (Sparse.erase m a) b = Sparse.lookup m b := by
  induction m with
  | nil => rfl
  | cons e rest ih =>
    obtain ⟨k, u⟩ := e
    simp only [Sparse.erase]
    split
    · subst_vars; simp [Sparse.lookup, Ne.symm h]
    · simp [Sparse.lookup, ih]

theorem risesFrom_mono {lo k : Nat} (h : lo ≤ k) {m : Sparse α} (hm : Sparse.risesFrom k m = true) :
    Sparse.risesFrom lo m = true := by
  cases m with
  | nil => rfl
  | cons e rest => simp_all [Sparse.risesFrom]; omega

theorem wf_eq_risesFrom_pred {m : Sparse α} {lo : Nat} (h : Sparse.risesFrom lo m = true) :
    Sparse.wf m = true := by
  cases m with
  | nil => rfl
  | cons e rest => simp_all [Sparse.risesFrom, Sparse.wf]

theorem lookup_of_risesFrom {m : Sparse α} {lo a : Nat} (h : Sparse.risesFrom lo m = true) (ha : a ≤ lo) :
    Sparse.lookup m a = none := by
  induction m generalizing lo with
  | nil => rfl
  | cons e rest ih =>
    obtain ⟨k, u⟩ := e
    simp only [Sparse.risesFrom, Bool.and_eq_true, decide_eq_true_eq] at h
    have hk : k ≠ a := by omega
    simp [Sparse.lookup, hk, ih h.2 (by omega)]

theorem lookup_erase_self {m : Sparse α} (h : Sparse.wf m = true) (a : Nat) :
    Sparse.lookup (Sparse.erase m a) a = none := by
  induction m with
  | nil => rfl
  | cons e rest ih =>
    obtain ⟨k, u⟩ := e
    simp only [Sparse.wf] at h
    simp only [Sparse.erase]
    split
    · subst_vars; exact lookup_of_risesFrom h (le_refl _)
    · simp [Sparse.lookup, *, ih (wf_eq_risesFrom_pred h)]

theorem risesFrom_insert {m : Sparse α} {lo a : Nat} (v : α) (h : Sparse.risesFrom lo m = true)
    (ha : lo < a) : Sparse.risesFrom lo (Sparse.insert m a v) = true := by
  induction m generalizing lo with
  | nil => simp [Sparse.insert, Sparse.risesFrom, ha]
  | cons e rest ih =>
    obtain ⟨k, u⟩ := e
    simp only [Sparse.risesFrom, Bool.and_eq_true, decide_eq_true_eq] at h
    simp only [Sparse.insert]
    split
    · simp_all [Sparse.risesFrom]
    · split
      · subst_vars; simp_all [Sparse.risesFrom]
      · have : k < a := by omega
        simp_all [Sparse.risesFrom]

/-- A write keeps the canonical form. -/
theorem wf_insert {m : Sparse α} (a : Nat) (v : α) (h : Sparse.wf m = true) :
    Sparse.wf (Sparse.insert m a v) = true := by
  cases m with
  | nil => rfl
  | cons e rest =>
    obtain ⟨k, u⟩ := e
    simp only [Sparse.wf] at h
    simp only [Sparse.insert]
    split
    · simp_all [Sparse.wf, Sparse.risesFrom]
    · split
      · subst_vars; exact h
      · exact risesFrom_insert v h (by omega)

theorem risesFrom_erase {m : Sparse α} {lo : Nat} (a : Nat) (h : Sparse.risesFrom lo m = true) :
    Sparse.risesFrom lo (Sparse.erase m a) = true := by
  induction m generalizing lo with
  | nil => rfl
  | cons e rest ih =>
    obtain ⟨k, u⟩ := e
    simp only [Sparse.risesFrom, Bool.and_eq_true, decide_eq_true_eq] at h
    simp only [Sparse.erase]
    split
    · exact risesFrom_mono (by omega) h.2
    · simp [Sparse.risesFrom, h.1, ih h.2]

/-- Taking an entry out keeps the canonical form. -/
theorem wf_erase {m : Sparse α} (a : Nat) (h : Sparse.wf m = true) : Sparse.wf (Sparse.erase m a) = true := by
  cases m with
  | nil => rfl
  | cons e rest =>
    obtain ⟨k, u⟩ := e
    simp only [Sparse.wf] at h
    simp only [Sparse.erase]
    split
    · exact wf_eq_risesFrom_pred h
    · exact risesFrom_erase a h

theorem mem_insert {m : Sparse α} {a : Nat} {v : α} {e : Nat × α} (h : e ∈ Sparse.insert m a v) :
    e = (a, v) ∨ e ∈ m := by
  induction m with
  | nil => simpa [Sparse.insert] using h
  | cons x rest ih =>
    obtain ⟨k, u⟩ := x
    simp only [Sparse.insert] at h
    split at h
    · simp_all
    · split at h
      · simp_all; tauto
      · simp only [List.mem_cons] at h ⊢
        rcases h with h | h
        · tauto
        · rcases ih h with h | h <;> tauto

theorem mem_erase {m : Sparse α} {a : Nat} {e : Nat × α} (h : e ∈ Sparse.erase m a) : e ∈ m := by
  induction m with
  | nil => simp [Sparse.erase] at h
  | cons x rest ih =>
    obtain ⟨k, u⟩ := x
    simp only [Sparse.erase] at h
    split at h
    · simp_all
    · simp only [List.mem_cons] at h ⊢
      rcases h with h | h
      · tauto
      · exact Or.inr (ih h)

/-- A write below the bound keeps every key below it. -/
theorem keysBelow_insert {m : Sparse α} {n a : Nat} (v : α) (h : Sparse.keysBelow n m = true) (ha : a < n) :
    Sparse.keysBelow n (Sparse.insert m a v) = true := by
  simp only [Sparse.keysBelow, List.all_eq_true, decide_eq_true_eq] at h ⊢
  intro e he
  rcases mem_insert he with rfl | he
  · exact ha
  · exact h e he

theorem keysBelow_erase {m : Sparse α} {n : Nat} (a : Nat) (h : Sparse.keysBelow n m = true) :
    Sparse.keysBelow n (Sparse.erase m a) = true := by
  simp only [Sparse.keysBelow, List.all_eq_true, decide_eq_true_eq] at h ⊢
  exact fun e he => h e (mem_erase he)

/-- Two canonical maps that read the same everywhere are the same list: the form is canonical. -/
theorem eq_of_lookup_eq {m n : Sparse α} (hm : Sparse.wf m = true) (hn : Sparse.wf n = true)
    (h : ∀ a, Sparse.lookup m a = Sparse.lookup n a) : m = n := by
  induction m generalizing n with
  | nil =>
    cases n with
    | nil => rfl
    | cons e rest => have := h e.1; simp [Sparse.lookup] at this
  | cons e rest ih =>
    cases n with
    | nil => have := h e.1; simp [Sparse.lookup] at this
    | cons e' rest' =>
      obtain ⟨k, u⟩ := e
      obtain ⟨k', u'⟩ := e'
      simp only [Sparse.wf] at hm hn
      have hk : k = k' := by
        rcases lt_trichotomy k k' with hlt | heq | hgt
        · have := h k
          simp [Sparse.lookup, Nat.ne_of_gt hlt, lookup_of_risesFrom hn (le_of_lt hlt)] at this
        · exact heq
        · have := h k'
          simp [Sparse.lookup, Nat.ne_of_gt hgt, lookup_of_risesFrom hm (le_of_lt hgt)] at this
      subst hk
      have hu : u = u' := by have := h k; simpa [Sparse.lookup] using this
      subst hu
      congr 1
      refine ih (wf_eq_risesFrom_pred hm) (wf_eq_risesFrom_pred hn) (fun a => ?_)
      by_cases ha : k = a
      · subst ha; rw [lookup_of_risesFrom hm (le_refl _), lookup_of_risesFrom hn (le_refl _)]
      · have := h a; simpa [Sparse.lookup, ha] using this

end Sys2Proof.Machine
end

