-- ==== Sys2Proof/Laws/State.lean ====
section
/-! SUPPORT. What each update of the state does to each field and each reading of it, so that no later
proof unfolds a record update. -/

namespace Sys2Proof.Machine

/-! ## setReg -/

@[simp] theorem setReg_regs (s : State) (r : Reg) (w : W64) : (s.setReg r w).regs = s.regs.set r w := rfl
@[simp] theorem setReg_pc (s : State) (r : Reg) (w : W64) : (s.setReg r w).pc = s.pc := rfl
@[simp] theorem setReg_ir (s : State) (r : Reg) (w : W64) : (s.setReg r w).ir = s.ir := rfl
@[simp] theorem setReg_rflags (s : State) (r : Reg) (w : W64) : (s.setReg r w).rflags = s.rflags := rfl
@[simp] theorem setReg_ivt (s : State) (r : Reg) (w : W64) : (s.setReg r w).ivt = s.ivt := rfl
@[simp] theorem setReg_isrDepth (s : State) (r : Reg) (w : W64) : (s.setReg r w).isrDepth = s.isrDepth := rfl
@[simp] theorem setReg_pending (s : State) (r : Reg) (w : W64) : (s.setReg r w).pending = s.pending := rfl
@[simp] theorem setReg_halted (s : State) (r : Reg) (w : W64) : (s.setReg r w).halted = s.halted := rfl
@[simp] theorem setReg_ports (s : State) (r : Reg) (w : W64) : (s.setReg r w).ports = s.ports := rfl
@[simp] theorem setReg_mem (s : State) (r : Reg) (w : W64) : (s.setReg r w).mem = s.mem := rfl
@[simp] theorem setReg_memSize (s : State) (r : Reg) (w : W64) : (s.setReg r w).memSize = s.memSize := rfl
@[simp] theorem setReg_draws (s : State) (r : Reg) (w : W64) : (s.setReg r w).draws = s.draws := rfl
@[simp] theorem setReg_turns (s : State) (r : Reg) (w : W64) : (s.setReg r w).turns = s.turns := rfl
@[simp] theorem setReg_moves (s : State) (r : Reg) (w : W64) : (s.setReg r w).moves = s.moves := rfl
@[simp] theorem setReg_flags (s : State) (r : Reg) (w : W64) : (s.setReg r w).flags = s.flags := rfl
@[simp] theorem setReg_cell (s : State) (r : Reg) (w : W64) (c : Nat) : (s.setReg r w).cell c = s.cell c := rfl
@[simp] theorem setReg_vector (s : State) (r : Reg) (w : W64) (u : Nat) : (s.setReg r w).vector u = s.vector u := rfl
@[simp] theorem setReg_port (s : State) (r : Reg) (w : W64) (q : Nat) : (s.setReg r w).port q = s.port q := rfl
@[simp] theorem setReg_inBounds (s : State) (r : Reg) (w : W64) (c : Int) : (s.setReg r w).inBounds c = s.inBounds c := rfl
@[simp] theorem setReg_nextAddr (s : State) (r : Reg) (w : W64) : (s.setReg r w).nextAddr = s.nextAddr := rfl
@[simp] theorem setReg_interruptible (s : State) (r : Reg) (w : W64) : (s.setReg r w).interruptible = s.interruptible := rfl

/-! ## setPc -/

@[simp] theorem setPc_regs (s : State) (t : Int) : (s.setPc t).regs = s.regs := rfl
@[simp] theorem setPc_pc (s : State) (t : Int) : (s.setPc t).pc = t := rfl
@[simp] theorem setPc_ir (s : State) (t : Int) : (s.setPc t).ir = s.ir := rfl
@[simp] theorem setPc_rflags (s : State) (t : Int) : (s.setPc t).rflags = s.rflags := rfl
@[simp] theorem setPc_ivt (s : State) (t : Int) : (s.setPc t).ivt = s.ivt := rfl
@[simp] theorem setPc_isrDepth (s : State) (t : Int) : (s.setPc t).isrDepth = s.isrDepth := rfl
@[simp] theorem setPc_pending (s : State) (t : Int) : (s.setPc t).pending = s.pending := rfl
@[simp] theorem setPc_halted (s : State) (t : Int) : (s.setPc t).halted = s.halted := rfl
@[simp] theorem setPc_ports (s : State) (t : Int) : (s.setPc t).ports = s.ports := rfl
@[simp] theorem setPc_mem (s : State) (t : Int) : (s.setPc t).mem = s.mem := rfl
@[simp] theorem setPc_memSize (s : State) (t : Int) : (s.setPc t).memSize = s.memSize := rfl
@[simp] theorem setPc_draws (s : State) (t : Int) : (s.setPc t).draws = s.draws := rfl
@[simp] theorem setPc_turns (s : State) (t : Int) : (s.setPc t).turns = s.turns := rfl
@[simp] theorem setPc_moves (s : State) (t : Int) : (s.setPc t).moves = s.moves := rfl
@[simp] theorem setPc_reg (s : State) (t : Int) (q : Reg) : (s.setPc t).reg q = s.reg q := rfl
@[simp] theorem setPc_flags (s : State) (t : Int) : (s.setPc t).flags = s.flags := rfl
@[simp] theorem setPc_cell (s : State) (t : Int) (c : Nat) : (s.setPc t).cell c = s.cell c := rfl
@[simp] theorem setPc_vector (s : State) (t : Int) (u : Nat) : (s.setPc t).vector u = s.vector u := rfl
@[simp] theorem setPc_port (s : State) (t : Int) (q : Nat) : (s.setPc t).port q = s.port q := rfl
@[simp] theorem setPc_inBounds (s : State) (t : Int) (c : Int) : (s.setPc t).inBounds c = s.inBounds c := rfl
@[simp] theorem setPc_interruptible (s : State) (t : Int) : (s.setPc t).interruptible = s.interruptible := rfl

/-! ## advance -/

@[simp] theorem advance_regs (s : State) : (s.advance).regs = s.regs := rfl
@[simp] theorem advance_pc (s : State) : (s.advance).pc = s.pc + 2 := rfl
@[simp] theorem advance_ir (s : State) : (s.advance).ir = s.ir := rfl
@[simp] theorem advance_rflags (s : State) : (s.advance).rflags = s.rflags := rfl
@[simp] theorem advance_ivt (s : State) : (s.advance).ivt = s.ivt := rfl
@[simp] theorem advance_isrDepth (s : State) : (s.advance).isrDepth = s.isrDepth := rfl
@[simp] theorem advance_pending (s : State) : (s.advance).pending = s.pending := rfl
@[simp] theorem advance_halted (s : State) : (s.advance).halted = s.halted := rfl
@[simp] theorem advance_ports (s : State) : (s.advance).ports = s.ports := rfl
@[simp] theorem advance_mem (s : State) : (s.advance).mem = s.mem := rfl
@[simp] theorem advance_memSize (s : State) : (s.advance).memSize = s.memSize := rfl
@[simp] theorem advance_draws (s : State) : (s.advance).draws = s.draws := rfl
@[simp] theorem advance_turns (s : State) : (s.advance).turns = s.turns := rfl
@[simp] theorem advance_moves (s : State) : (s.advance).moves = s.moves := rfl
@[simp] theorem advance_reg (s : State) (q : Reg) : (s.advance).reg q = s.reg q := rfl
@[simp] theorem advance_flags (s : State) : (s.advance).flags = s.flags := rfl
@[simp] theorem advance_cell (s : State) (c : Nat) : (s.advance).cell c = s.cell c := rfl
@[simp] theorem advance_vector (s : State) (u : Nat) : (s.advance).vector u = s.vector u := rfl
@[simp] theorem advance_port (s : State) (q : Nat) : (s.advance).port q = s.port q := rfl
@[simp] theorem advance_inBounds (s : State) (c : Int) : (s.advance).inBounds c = s.inBounds c := rfl
@[simp] theorem advance_interruptible (s : State) : (s.advance).interruptible = s.interruptible := rfl

/-! ## setIr -/

@[simp] theorem setIr_regs (s : State) (w : W128) : (s.setIr w).regs = s.regs := rfl
@[simp] theorem setIr_pc (s : State) (w : W128) : (s.setIr w).pc = s.pc := rfl
@[simp] theorem setIr_ir (s : State) (w : W128) : (s.setIr w).ir = w := rfl
@[simp] theorem setIr_rflags (s : State) (w : W128) : (s.setIr w).rflags = s.rflags := rfl
@[simp] theorem setIr_ivt (s : State) (w : W128) : (s.setIr w).ivt = s.ivt := rfl
@[simp] theorem setIr_isrDepth (s : State) (w : W128) : (s.setIr w).isrDepth = s.isrDepth := rfl
@[simp] theorem setIr_pending (s : State) (w : W128) : (s.setIr w).pending = s.pending := rfl
@[simp] theorem setIr_halted (s : State) (w : W128) : (s.setIr w).halted = s.halted := rfl
@[simp] theorem setIr_ports (s : State) (w : W128) : (s.setIr w).ports = s.ports := rfl
@[simp] theorem setIr_mem (s : State) (w : W128) : (s.setIr w).mem = s.mem := rfl
@[simp] theorem setIr_memSize (s : State) (w : W128) : (s.setIr w).memSize = s.memSize := rfl
@[simp] theorem setIr_draws (s : State) (w : W128) : (s.setIr w).draws = s.draws := rfl
@[simp] theorem setIr_turns (s : State) (w : W128) : (s.setIr w).turns = s.turns := rfl
@[simp] theorem setIr_moves (s : State) (w : W128) : (s.setIr w).moves = s.moves := rfl
@[simp] theorem setIr_reg (s : State) (w : W128) (q : Reg) : (s.setIr w).reg q = s.reg q := rfl
@[simp] theorem setIr_flags (s : State) (w : W128) : (s.setIr w).flags = s.flags := rfl
@[simp] theorem setIr_cell (s : State) (w : W128) (c : Nat) : (s.setIr w).cell c = s.cell c := rfl
@[simp] theorem setIr_vector (s : State) (w : W128) (u : Nat) : (s.setIr w).vector u = s.vector u := rfl
@[simp] theorem setIr_port (s : State) (w : W128) (q : Nat) : (s.setIr w).port q = s.port q := rfl
@[simp] theorem setIr_inBounds (s : State) (w : W128) (c : Int) : (s.setIr w).inBounds c = s.inBounds c := rfl
@[simp] theorem setIr_nextAddr (s : State) (w : W128) : (s.setIr w).nextAddr = s.nextAddr := rfl
@[simp] theorem setIr_interruptible (s : State) (w : W128) : (s.setIr w).interruptible = s.interruptible := rfl

/-! ## setIsrDepth -/

@[simp] theorem setIsrDepth_regs (s : State) (n : Nat) : (s.setIsrDepth n).regs = s.regs := rfl
@[simp] theorem setIsrDepth_pc (s : State) (n : Nat) : (s.setIsrDepth n).pc = s.pc := rfl
@[simp] theorem setIsrDepth_ir (s : State) (n : Nat) : (s.setIsrDepth n).ir = s.ir := rfl
@[simp] theorem setIsrDepth_rflags (s : State) (n : Nat) : (s.setIsrDepth n).rflags = s.rflags := rfl
@[simp] theorem setIsrDepth_ivt (s : State) (n : Nat) : (s.setIsrDepth n).ivt = s.ivt := rfl
@[simp] theorem setIsrDepth_isrDepth (s : State) (n : Nat) : (s.setIsrDepth n).isrDepth = n := rfl
@[simp] theorem setIsrDepth_pending (s : State) (n : Nat) : (s.setIsrDepth n).pending = s.pending := rfl
@[simp] theorem setIsrDepth_halted (s : State) (n : Nat) : (s.setIsrDepth n).halted = s.halted := rfl
@[simp] theorem setIsrDepth_ports (s : State) (n : Nat) : (s.setIsrDepth n).ports = s.ports := rfl
@[simp] theorem setIsrDepth_mem (s : State) (n : Nat) : (s.setIsrDepth n).mem = s.mem := rfl
@[simp] theorem setIsrDepth_memSize (s : State) (n : Nat) : (s.setIsrDepth n).memSize = s.memSize := rfl
@[simp] theorem setIsrDepth_draws (s : State) (n : Nat) : (s.setIsrDepth n).draws = s.draws := rfl
@[simp] theorem setIsrDepth_turns (s : State) (n : Nat) : (s.setIsrDepth n).turns = s.turns := rfl
@[simp] theorem setIsrDepth_moves (s : State) (n : Nat) : (s.setIsrDepth n).moves = s.moves := rfl
@[simp] theorem setIsrDepth_reg (s : State) (n : Nat) (q : Reg) : (s.setIsrDepth n).reg q = s.reg q := rfl
@[simp] theorem setIsrDepth_flags (s : State) (n : Nat) : (s.setIsrDepth n).flags = s.flags := rfl
@[simp] theorem setIsrDepth_cell (s : State) (n : Nat) (c : Nat) : (s.setIsrDepth n).cell c = s.cell c := rfl
@[simp] theorem setIsrDepth_vector (s : State) (n : Nat) (u : Nat) : (s.setIsrDepth n).vector u = s.vector u := rfl
@[simp] theorem setIsrDepth_port (s : State) (n : Nat) (q : Nat) : (s.setIsrDepth n).port q = s.port q := rfl
@[simp] theorem setIsrDepth_inBounds (s : State) (n : Nat) (c : Int) : (s.setIsrDepth n).inBounds c = s.inBounds c := rfl
@[simp] theorem setIsrDepth_nextAddr (s : State) (n : Nat) : (s.setIsrDepth n).nextAddr = s.nextAddr := rfl

/-! ## setHalted -/

@[simp] theorem setHalted_regs (s : State) (b : Bool) : (s.setHalted b).regs = s.regs := rfl
@[simp] theorem setHalted_pc (s : State) (b : Bool) : (s.setHalted b).pc = s.pc := rfl
@[simp] theorem setHalted_ir (s : State) (b : Bool) : (s.setHalted b).ir = s.ir := rfl
@[simp] theorem setHalted_rflags (s : State) (b : Bool) : (s.setHalted b).rflags = s.rflags := rfl
@[simp] theorem setHalted_ivt (s : State) (b : Bool) : (s.setHalted b).ivt = s.ivt := rfl
@[simp] theorem setHalted_isrDepth (s : State) (b : Bool) : (s.setHalted b).isrDepth = s.isrDepth := rfl
@[simp] theorem setHalted_pending (s : State) (b : Bool) : (s.setHalted b).pending = s.pending := rfl
@[simp] theorem setHalted_halted (s : State) (b : Bool) : (s.setHalted b).halted = b := rfl
@[simp] theorem setHalted_ports (s : State) (b : Bool) : (s.setHalted b).ports = s.ports := rfl
@[simp] theorem setHalted_mem (s : State) (b : Bool) : (s.setHalted b).mem = s.mem := rfl
@[simp] theorem setHalted_memSize (s : State) (b : Bool) : (s.setHalted b).memSize = s.memSize := rfl
@[simp] theorem setHalted_draws (s : State) (b : Bool) : (s.setHalted b).draws = s.draws := rfl
@[simp] theorem setHalted_turns (s : State) (b : Bool) : (s.setHalted b).turns = s.turns := rfl
@[simp] theorem setHalted_moves (s : State) (b : Bool) : (s.setHalted b).moves = s.moves := rfl
@[simp] theorem setHalted_reg (s : State) (b : Bool) (q : Reg) : (s.setHalted b).reg q = s.reg q := rfl
@[simp] theorem setHalted_flags (s : State) (b : Bool) : (s.setHalted b).flags = s.flags := rfl
@[simp] theorem setHalted_cell (s : State) (b : Bool) (c : Nat) : (s.setHalted b).cell c = s.cell c := rfl
@[simp] theorem setHalted_vector (s : State) (b : Bool) (u : Nat) : (s.setHalted b).vector u = s.vector u := rfl
@[simp] theorem setHalted_port (s : State) (b : Bool) (q : Nat) : (s.setHalted b).port q = s.port q := rfl
@[simp] theorem setHalted_inBounds (s : State) (b : Bool) (c : Int) : (s.setHalted b).inBounds c = s.inBounds c := rfl
@[simp] theorem setHalted_nextAddr (s : State) (b : Bool) : (s.setHalted b).nextAddr = s.nextAddr := rfl
@[simp] theorem setHalted_interruptible (s : State) (b : Bool) : (s.setHalted b).interruptible = s.interruptible := rfl

/-! ## setPending -/

@[simp] theorem setPending_regs (s : State) (l : List Nat) : (s.setPending l).regs = s.regs := rfl
@[simp] theorem setPending_pc (s : State) (l : List Nat) : (s.setPending l).pc = s.pc := rfl
@[simp] theorem setPending_ir (s : State) (l : List Nat) : (s.setPending l).ir = s.ir := rfl
@[simp] theorem setPending_rflags (s : State) (l : List Nat) : (s.setPending l).rflags = s.rflags := rfl
@[simp] theorem setPending_ivt (s : State) (l : List Nat) : (s.setPending l).ivt = s.ivt := rfl
@[simp] theorem setPending_isrDepth (s : State) (l : List Nat) : (s.setPending l).isrDepth = s.isrDepth := rfl
@[simp] theorem setPending_pending (s : State) (l : List Nat) : (s.setPending l).pending = l := rfl
@[simp] theorem setPending_halted (s : State) (l : List Nat) : (s.setPending l).halted = s.halted := rfl
@[simp] theorem setPending_ports (s : State) (l : List Nat) : (s.setPending l).ports = s.ports := rfl
@[simp] theorem setPending_mem (s : State) (l : List Nat) : (s.setPending l).mem = s.mem := rfl
@[simp] theorem setPending_memSize (s : State) (l : List Nat) : (s.setPending l).memSize = s.memSize := rfl
@[simp] theorem setPending_draws (s : State) (l : List Nat) : (s.setPending l).draws = s.draws := rfl
@[simp] theorem setPending_turns (s : State) (l : List Nat) : (s.setPending l).turns = s.turns := rfl
@[simp] theorem setPending_moves (s : State) (l : List Nat) : (s.setPending l).moves = s.moves := rfl
@[simp] theorem setPending_reg (s : State) (l : List Nat) (q : Reg) : (s.setPending l).reg q = s.reg q := rfl
@[simp] theorem setPending_flags (s : State) (l : List Nat) : (s.setPending l).flags = s.flags := rfl
@[simp] theorem setPending_cell (s : State) (l : List Nat) (c : Nat) : (s.setPending l).cell c = s.cell c := rfl
@[simp] theorem setPending_vector (s : State) (l : List Nat) (u : Nat) : (s.setPending l).vector u = s.vector u := rfl
@[simp] theorem setPending_port (s : State) (l : List Nat) (q : Nat) : (s.setPending l).port q = s.port q := rfl
@[simp] theorem setPending_inBounds (s : State) (l : List Nat) (c : Int) : (s.setPending l).inBounds c = s.inBounds c := rfl
@[simp] theorem setPending_nextAddr (s : State) (l : List Nat) : (s.setPending l).nextAddr = s.nextAddr := rfl

/-! ## drawn -/

@[simp] theorem drawn_regs (s : State) : (s.drawn).regs = s.regs := rfl
@[simp] theorem drawn_pc (s : State) : (s.drawn).pc = s.pc := rfl
@[simp] theorem drawn_ir (s : State) : (s.drawn).ir = s.ir := rfl
@[simp] theorem drawn_rflags (s : State) : (s.drawn).rflags = s.rflags := rfl
@[simp] theorem drawn_ivt (s : State) : (s.drawn).ivt = s.ivt := rfl
@[simp] theorem drawn_isrDepth (s : State) : (s.drawn).isrDepth = s.isrDepth := rfl
@[simp] theorem drawn_pending (s : State) : (s.drawn).pending = s.pending := rfl
@[simp] theorem drawn_halted (s : State) : (s.drawn).halted = s.halted := rfl
@[simp] theorem drawn_ports (s : State) : (s.drawn).ports = s.ports := rfl
@[simp] theorem drawn_mem (s : State) : (s.drawn).mem = s.mem := rfl
@[simp] theorem drawn_memSize (s : State) : (s.drawn).memSize = s.memSize := rfl
@[simp] theorem drawn_draws (s : State) : (s.drawn).draws = s.draws + 1 := rfl
@[simp] theorem drawn_turns (s : State) : (s.drawn).turns = s.turns := rfl
@[simp] theorem drawn_moves (s : State) : (s.drawn).moves = s.moves := rfl
@[simp] theorem drawn_reg (s : State) (q : Reg) : (s.drawn).reg q = s.reg q := rfl
@[simp] theorem drawn_flags (s : State) : (s.drawn).flags = s.flags := rfl
@[simp] theorem drawn_cell (s : State) (c : Nat) : (s.drawn).cell c = s.cell c := rfl
@[simp] theorem drawn_vector (s : State) (u : Nat) : (s.drawn).vector u = s.vector u := rfl
@[simp] theorem drawn_port (s : State) (q : Nat) : (s.drawn).port q = s.port q := rfl
@[simp] theorem drawn_inBounds (s : State) (c : Int) : (s.drawn).inBounds c = s.inBounds c := rfl
@[simp] theorem drawn_nextAddr (s : State) : (s.drawn).nextAddr = s.nextAddr := rfl
@[simp] theorem drawn_interruptible (s : State) : (s.drawn).interruptible = s.interruptible := rfl

/-! ## setCell -/

@[simp] theorem setCell_regs (s : State) (a : Nat) (w : W64) : (s.setCell a w).regs = s.regs := rfl
@[simp] theorem setCell_pc (s : State) (a : Nat) (w : W64) : (s.setCell a w).pc = s.pc := rfl
@[simp] theorem setCell_ir (s : State) (a : Nat) (w : W64) : (s.setCell a w).ir = s.ir := rfl
@[simp] theorem setCell_rflags (s : State) (a : Nat) (w : W64) : (s.setCell a w).rflags = s.rflags := rfl
@[simp] theorem setCell_ivt (s : State) (a : Nat) (w : W64) : (s.setCell a w).ivt = s.ivt := rfl
@[simp] theorem setCell_isrDepth (s : State) (a : Nat) (w : W64) : (s.setCell a w).isrDepth = s.isrDepth := rfl
@[simp] theorem setCell_pending (s : State) (a : Nat) (w : W64) : (s.setCell a w).pending = s.pending := rfl
@[simp] theorem setCell_halted (s : State) (a : Nat) (w : W64) : (s.setCell a w).halted = s.halted := rfl
@[simp] theorem setCell_ports (s : State) (a : Nat) (w : W64) : (s.setCell a w).ports = s.ports := rfl
@[simp] theorem setCell_mem (s : State) (a : Nat) (w : W64) : (s.setCell a w).mem = Sparse.insert s.mem a w := rfl
@[simp] theorem setCell_memSize (s : State) (a : Nat) (w : W64) : (s.setCell a w).memSize = s.memSize := rfl
@[simp] theorem setCell_draws (s : State) (a : Nat) (w : W64) : (s.setCell a w).draws = s.draws := rfl
@[simp] theorem setCell_turns (s : State) (a : Nat) (w : W64) : (s.setCell a w).turns = s.turns := rfl
@[simp] theorem setCell_moves (s : State) (a : Nat) (w : W64) : (s.setCell a w).moves = s.moves := rfl
@[simp] theorem setCell_reg (s : State) (a : Nat) (w : W64) (q : Reg) : (s.setCell a w).reg q = s.reg q := rfl
@[simp] theorem setCell_flags (s : State) (a : Nat) (w : W64) : (s.setCell a w).flags = s.flags := rfl
@[simp] theorem setCell_vector (s : State) (a : Nat) (w : W64) (u : Nat) : (s.setCell a w).vector u = s.vector u := rfl
@[simp] theorem setCell_port (s : State) (a : Nat) (w : W64) (q : Nat) : (s.setCell a w).port q = s.port q := rfl
@[simp] theorem setCell_inBounds (s : State) (a : Nat) (w : W64) (c : Int) : (s.setCell a w).inBounds c = s.inBounds c := rfl
@[simp] theorem setCell_nextAddr (s : State) (a : Nat) (w : W64) : (s.setCell a w).nextAddr = s.nextAddr := rfl
@[simp] theorem setCell_interruptible (s : State) (a : Nat) (w : W64) : (s.setCell a w).interruptible = s.interruptible := rfl

/-! ## setVector -/

@[simp] theorem setVector_regs (s : State) (v : Nat) (a : Int) : (s.setVector v a).regs = s.regs := rfl
@[simp] theorem setVector_pc (s : State) (v : Nat) (a : Int) : (s.setVector v a).pc = s.pc := rfl
@[simp] theorem setVector_ir (s : State) (v : Nat) (a : Int) : (s.setVector v a).ir = s.ir := rfl
@[simp] theorem setVector_rflags (s : State) (v : Nat) (a : Int) : (s.setVector v a).rflags = s.rflags := rfl
@[simp] theorem setVector_ivt (s : State) (v : Nat) (a : Int) : (s.setVector v a).ivt = Sparse.insert s.ivt v a := rfl
@[simp] theorem setVector_isrDepth (s : State) (v : Nat) (a : Int) : (s.setVector v a).isrDepth = s.isrDepth := rfl
@[simp] theorem setVector_pending (s : State) (v : Nat) (a : Int) : (s.setVector v a).pending = s.pending := rfl
@[simp] theorem setVector_halted (s : State) (v : Nat) (a : Int) : (s.setVector v a).halted = s.halted := rfl
@[simp] theorem setVector_ports (s : State) (v : Nat) (a : Int) : (s.setVector v a).ports = s.ports := rfl
@[simp] theorem setVector_mem (s : State) (v : Nat) (a : Int) : (s.setVector v a).mem = s.mem := rfl
@[simp] theorem setVector_memSize (s : State) (v : Nat) (a : Int) : (s.setVector v a).memSize = s.memSize := rfl
@[simp] theorem setVector_draws (s : State) (v : Nat) (a : Int) : (s.setVector v a).draws = s.draws := rfl
@[simp] theorem setVector_turns (s : State) (v : Nat) (a : Int) : (s.setVector v a).turns = s.turns := rfl
@[simp] theorem setVector_moves (s : State) (v : Nat) (a : Int) : (s.setVector v a).moves = s.moves := rfl
@[simp] theorem setVector_reg (s : State) (v : Nat) (a : Int) (q : Reg) : (s.setVector v a).reg q = s.reg q := rfl
@[simp] theorem setVector_flags (s : State) (v : Nat) (a : Int) : (s.setVector v a).flags = s.flags := rfl
@[simp] theorem setVector_cell (s : State) (v : Nat) (a : Int) (c : Nat) : (s.setVector v a).cell c = s.cell c := rfl
@[simp] theorem setVector_port (s : State) (v : Nat) (a : Int) (q : Nat) : (s.setVector v a).port q = s.port q := rfl
@[simp] theorem setVector_inBounds (s : State) (v : Nat) (a : Int) (c : Int) : (s.setVector v a).inBounds c = s.inBounds c := rfl
@[simp] theorem setVector_nextAddr (s : State) (v : Nat) (a : Int) : (s.setVector v a).nextAddr = s.nextAddr := rfl
@[simp] theorem setVector_interruptible (s : State) (v : Nat) (a : Int) : (s.setVector v a).interruptible = s.interruptible := rfl

/-! ## setPort -/

@[simp] theorem setPort_regs (s : State) (p : Nat) (v : Port) : (s.setPort p v).regs = s.regs := rfl
@[simp] theorem setPort_pc (s : State) (p : Nat) (v : Port) : (s.setPort p v).pc = s.pc := rfl
@[simp] theorem setPort_ir (s : State) (p : Nat) (v : Port) : (s.setPort p v).ir = s.ir := rfl
@[simp] theorem setPort_rflags (s : State) (p : Nat) (v : Port) : (s.setPort p v).rflags = s.rflags := rfl
@[simp] theorem setPort_ivt (s : State) (p : Nat) (v : Port) : (s.setPort p v).ivt = s.ivt := rfl
@[simp] theorem setPort_isrDepth (s : State) (p : Nat) (v : Port) : (s.setPort p v).isrDepth = s.isrDepth := rfl
@[simp] theorem setPort_pending (s : State) (p : Nat) (v : Port) : (s.setPort p v).pending = s.pending := rfl
@[simp] theorem setPort_halted (s : State) (p : Nat) (v : Port) : (s.setPort p v).halted = s.halted := rfl
@[simp] theorem setPort_ports (s : State) (p : Nat) (v : Port) : (s.setPort p v).ports = if v = Port.reset then Sparse.erase s.ports p else Sparse.insert s.ports p v := rfl
@[simp] theorem setPort_mem (s : State) (p : Nat) (v : Port) : (s.setPort p v).mem = s.mem := rfl
@[simp] theorem setPort_memSize (s : State) (p : Nat) (v : Port) : (s.setPort p v).memSize = s.memSize := rfl
@[simp] theorem setPort_draws (s : State) (p : Nat) (v : Port) : (s.setPort p v).draws = s.draws := rfl
@[simp] theorem setPort_turns (s : State) (p : Nat) (v : Port) : (s.setPort p v).turns = s.turns := rfl
@[simp] theorem setPort_moves (s : State) (p : Nat) (v : Port) : (s.setPort p v).moves = s.moves := rfl
@[simp] theorem setPort_reg (s : State) (p : Nat) (v : Port) (q : Reg) : (s.setPort p v).reg q = s.reg q := rfl
@[simp] theorem setPort_flags (s : State) (p : Nat) (v : Port) : (s.setPort p v).flags = s.flags := rfl
@[simp] theorem setPort_cell (s : State) (p : Nat) (v : Port) (c : Nat) : (s.setPort p v).cell c = s.cell c := rfl
@[simp] theorem setPort_vector (s : State) (p : Nat) (v : Port) (u : Nat) : (s.setPort p v).vector u = s.vector u := rfl
@[simp] theorem setPort_inBounds (s : State) (p : Nat) (v : Port) (c : Int) : (s.setPort p v).inBounds c = s.inBounds c := rfl
@[simp] theorem setPort_nextAddr (s : State) (p : Nat) (v : Port) : (s.setPort p v).nextAddr = s.nextAddr := rfl
@[simp] theorem setPort_interruptible (s : State) (p : Nat) (v : Port) : (s.setPort p v).interruptible = s.interruptible := rfl

/-! ## setFlags -/

@[simp] theorem setFlags_regs (s : State) (f : Flags) : (s.setFlags f).regs = s.regs := rfl
@[simp] theorem setFlags_pc (s : State) (f : Flags) : (s.setFlags f).pc = s.pc := rfl
@[simp] theorem setFlags_ir (s : State) (f : Flags) : (s.setFlags f).ir = s.ir := rfl
@[simp] theorem setFlags_rflags (s : State) (f : Flags) : (s.setFlags f).rflags = packFlags f := rfl
@[simp] theorem setFlags_ivt (s : State) (f : Flags) : (s.setFlags f).ivt = s.ivt := rfl
@[simp] theorem setFlags_isrDepth (s : State) (f : Flags) : (s.setFlags f).isrDepth = s.isrDepth := rfl
@[simp] theorem setFlags_pending (s : State) (f : Flags) : (s.setFlags f).pending = s.pending := rfl
@[simp] theorem setFlags_halted (s : State) (f : Flags) : (s.setFlags f).halted = s.halted := rfl
@[simp] theorem setFlags_ports (s : State) (f : Flags) : (s.setFlags f).ports = s.ports := rfl
@[simp] theorem setFlags_mem (s : State) (f : Flags) : (s.setFlags f).mem = s.mem := rfl
@[simp] theorem setFlags_memSize (s : State) (f : Flags) : (s.setFlags f).memSize = s.memSize := rfl
@[simp] theorem setFlags_draws (s : State) (f : Flags) : (s.setFlags f).draws = s.draws := rfl
@[simp] theorem setFlags_turns (s : State) (f : Flags) : (s.setFlags f).turns = s.turns := rfl
@[simp] theorem setFlags_moves (s : State) (f : Flags) : (s.setFlags f).moves = s.moves := rfl
@[simp] theorem setFlags_reg (s : State) (f : Flags) (q : Reg) : (s.setFlags f).reg q = s.reg q := rfl
@[simp] theorem setFlags_cell (s : State) (f : Flags) (c : Nat) : (s.setFlags f).cell c = s.cell c := rfl
@[simp] theorem setFlags_vector (s : State) (f : Flags) (u : Nat) : (s.setFlags f).vector u = s.vector u := rfl
@[simp] theorem setFlags_port (s : State) (f : Flags) (q : Nat) : (s.setFlags f).port q = s.port q := rfl
@[simp] theorem setFlags_inBounds (s : State) (f : Flags) (c : Int) : (s.setFlags f).inBounds c = s.inBounds c := rfl
@[simp] theorem setFlags_nextAddr (s : State) (f : Flags) : (s.setFlags f).nextAddr = s.nextAddr := rfl
@[simp] theorem setFlags_interruptible (s : State) (f : Flags) : (s.setFlags f).interruptible = s.interruptible := rfl

/-! ## setTurns -/

@[simp] theorem setTurns_regs (s : State) (l : List Turn) : (s.setTurns l).regs = s.regs := rfl
@[simp] theorem setTurns_pc (s : State) (l : List Turn) : (s.setTurns l).pc = s.pc := rfl
@[simp] theorem setTurns_ir (s : State) (l : List Turn) : (s.setTurns l).ir = s.ir := rfl
@[simp] theorem setTurns_rflags (s : State) (l : List Turn) : (s.setTurns l).rflags = s.rflags := rfl
@[simp] theorem setTurns_ivt (s : State) (l : List Turn) : (s.setTurns l).ivt = s.ivt := rfl
@[simp] theorem setTurns_isrDepth (s : State) (l : List Turn) : (s.setTurns l).isrDepth = s.isrDepth := rfl
@[simp] theorem setTurns_pending (s : State) (l : List Turn) : (s.setTurns l).pending = s.pending := rfl
@[simp] theorem setTurns_halted (s : State) (l : List Turn) : (s.setTurns l).halted = s.halted := rfl
@[simp] theorem setTurns_ports (s : State) (l : List Turn) : (s.setTurns l).ports = s.ports := rfl
@[simp] theorem setTurns_mem (s : State) (l : List Turn) : (s.setTurns l).mem = s.mem := rfl
@[simp] theorem setTurns_memSize (s : State) (l : List Turn) : (s.setTurns l).memSize = s.memSize := rfl
@[simp] theorem setTurns_draws (s : State) (l : List Turn) : (s.setTurns l).draws = s.draws := rfl
@[simp] theorem setTurns_turns (s : State) (l : List Turn) : (s.setTurns l).turns = l := rfl
@[simp] theorem setTurns_moves (s : State) (l : List Turn) : (s.setTurns l).moves = s.moves := rfl
@[simp] theorem setTurns_reg (s : State) (l : List Turn) (q : Reg) : (s.setTurns l).reg q = s.reg q := rfl
@[simp] theorem setTurns_flags (s : State) (l : List Turn) : (s.setTurns l).flags = s.flags := rfl
@[simp] theorem setTurns_cell (s : State) (l : List Turn) (c : Nat) : (s.setTurns l).cell c = s.cell c := rfl
@[simp] theorem setTurns_vector (s : State) (l : List Turn) (u : Nat) : (s.setTurns l).vector u = s.vector u := rfl
@[simp] theorem setTurns_port (s : State) (l : List Turn) (q : Nat) : (s.setTurns l).port q = s.port q := rfl
@[simp] theorem setTurns_inBounds (s : State) (l : List Turn) (c : Int) : (s.setTurns l).inBounds c = s.inBounds c := rfl
@[simp] theorem setTurns_nextAddr (s : State) (l : List Turn) : (s.setTurns l).nextAddr = s.nextAddr := rfl
@[simp] theorem setTurns_interruptible (s : State) (l : List Turn) : (s.setTurns l).interruptible = s.interruptible := rfl

/-! ## enterHandler -/

@[simp] theorem enterHandler_regs (s : State) (a ret h : Int) : (s.enterHandler a ret h).regs = s.regs.set .rsp (ofInt a) := rfl
@[simp] theorem enterHandler_pc (s : State) (a ret h : Int) : (s.enterHandler a ret h).pc = h := rfl
@[simp] theorem enterHandler_ir (s : State) (a ret h : Int) : (s.enterHandler a ret h).ir = s.ir := rfl
@[simp] theorem enterHandler_rflags (s : State) (a ret h : Int) : (s.enterHandler a ret h).rflags = s.rflags := rfl
@[simp] theorem enterHandler_ivt (s : State) (a ret h : Int) : (s.enterHandler a ret h).ivt = s.ivt := rfl
@[simp] theorem enterHandler_isrDepth (s : State) (a ret h : Int) : (s.enterHandler a ret h).isrDepth = s.isrDepth + 1 := rfl
@[simp] theorem enterHandler_pending (s : State) (a ret h : Int) : (s.enterHandler a ret h).pending = s.pending := rfl
@[simp] theorem enterHandler_halted (s : State) (a ret h : Int) : (s.enterHandler a ret h).halted = false := rfl
@[simp] theorem enterHandler_ports (s : State) (a ret h : Int) : (s.enterHandler a ret h).ports = s.ports := rfl
@[simp] theorem enterHandler_mem (s : State) (a ret h : Int) : (s.enterHandler a ret h).mem = Sparse.insert s.mem a.toNat (ofInt ret) := rfl
@[simp] theorem enterHandler_memSize (s : State) (a ret h : Int) : (s.enterHandler a ret h).memSize = s.memSize := rfl
@[simp] theorem enterHandler_draws (s : State) (a ret h : Int) : (s.enterHandler a ret h).draws = s.draws := rfl
@[simp] theorem enterHandler_turns (s : State) (a ret h : Int) : (s.enterHandler a ret h).turns = s.turns := rfl
@[simp] theorem enterHandler_moves (s : State) (a ret h : Int) : (s.enterHandler a ret h).moves = s.moves := rfl
@[simp] theorem enterHandler_flags (s : State) (a ret h : Int) : (s.enterHandler a ret h).flags = s.flags := rfl
@[simp] theorem enterHandler_vector (s : State) (a ret h : Int) (u : Nat) : (s.enterHandler a ret h).vector u = s.vector u := rfl
@[simp] theorem enterHandler_port (s : State) (a ret h : Int) (q : Nat) : (s.enterHandler a ret h).port q = s.port q := rfl
@[simp] theorem enterHandler_inBounds (s : State) (a ret h : Int) (c : Int) : (s.enterHandler a ret h).inBounds c = s.inBounds c := rfl

/-! ## setRegNum -/

@[simp] theorem setRegNum_pc (s : State) (r : Reg) (v : NumResult) : (s.setRegNum r v).pc = s.pc := by
  cases v <;> rfl
@[simp] theorem setRegNum_ir (s : State) (r : Reg) (v : NumResult) : (s.setRegNum r v).ir = s.ir := by
  cases v <;> rfl
@[simp] theorem setRegNum_rflags (s : State) (r : Reg) (v : NumResult) : (s.setRegNum r v).rflags = s.rflags := by
  cases v <;> rfl
@[simp] theorem setRegNum_ivt (s : State) (r : Reg) (v : NumResult) : (s.setRegNum r v).ivt = s.ivt := by
  cases v <;> rfl
@[simp] theorem setRegNum_isrDepth (s : State) (r : Reg) (v : NumResult) : (s.setRegNum r v).isrDepth = s.isrDepth := by
  cases v <;> rfl
@[simp] theorem setRegNum_pending (s : State) (r : Reg) (v : NumResult) : (s.setRegNum r v).pending = s.pending := by
  cases v <;> rfl
@[simp] theorem setRegNum_halted (s : State) (r : Reg) (v : NumResult) : (s.setRegNum r v).halted = s.halted := by
  cases v <;> rfl
@[simp] theorem setRegNum_ports (s : State) (r : Reg) (v : NumResult) : (s.setRegNum r v).ports = s.ports := by
  cases v <;> rfl
@[simp] theorem setRegNum_mem (s : State) (r : Reg) (v : NumResult) : (s.setRegNum r v).mem = s.mem := by
  cases v <;> rfl
@[simp] theorem setRegNum_memSize (s : State) (r : Reg) (v : NumResult) : (s.setRegNum r v).memSize = s.memSize := by
  cases v <;> rfl
@[simp] theorem setRegNum_turns (s : State) (r : Reg) (v : NumResult) : (s.setRegNum r v).turns = s.turns := by
  cases v <;> rfl
@[simp] theorem setRegNum_moves (s : State) (r : Reg) (v : NumResult) : (s.setRegNum r v).moves = s.moves := by
  cases v <;> rfl

theorem setRegNum_word (s : State) (r : Reg) (w : W64) : s.setRegNum r (.word w) = s.setReg r w := rfl

theorem setRegNum_nan (s : State) (r : Reg) :
    s.setRegNum r .nan = (s.setReg r (nanWord (Config.freeWord s.draws))).drawn := rfl

/-! ## Registers -/

@[simp] theorem setReg_reg_self (s : State) (r : Reg) (w : W64) : (s.setReg r w).reg r = w := by
  cases r <;> rfl

theorem setReg_reg_ne (s : State) {r q : Reg} (w : W64) (h : q ≠ r) : (s.setReg r w).reg q = s.reg q := by
  cases r <;> cases q <;> first | rfl | exact absurd rfl h

theorem setReg_reg (s : State) (r q : Reg) (w : W64) :
    (s.setReg r w).reg q = if q = r then w else s.reg q := by
  split
  · subst_vars; simp
  · exact setReg_reg_ne s w ‹_›

theorem setRegNum_reg_ne (s : State) {r q : Reg} (v : NumResult) (h : q ≠ r) :
    (s.setRegNum r v).reg q = s.reg q := by
  cases v <;> simp [State.setRegNum, setReg_reg_ne, h]

theorem enterHandler_reg (s : State) (a ret h : Int) (q : Reg) :
    (s.enterHandler a ret h).reg q = if q = .rsp then ofInt a else s.reg q := by
  cases q <;> rfl

end Sys2Proof.Machine
end

