-- ==== Sys2Proof/Laws/Ops.lean ====
section
/-! SUPPORT. For each shared operation, once, everything it can do: what it answered when it answered, and
when it stops. -/

namespace Sys2Proof.Machine

/-! ## Parts of an instruction -/

/-- The first part answered, and the rest went on from its answer. -/
theorem act_bind_ok {α β : Type} {x : Act α} {f : α → Act β} {b : β} (h : (x >>= f) = .ok b) :
    ∃ a, x = .ok a ∧ f a = .ok b := by
  cases x with
  | error e => cases h
  | ok a => exact ⟨a, rfl, h⟩

/-- What stops a sequence stops its first part, or the rest of it. -/
theorem act_bind_error {α β : Type} {x : Act α} {f : α → Act β} {e : Stop} (h : (x >>= f) = .error e) :
    x = .error e ∨ ∃ a, x = .ok a ∧ f a = .error e := by
  cases x with
  | error e' => left; cases h; rfl
  | ok a => exact .inr ⟨a, rfl, h⟩

@[simp] theorem act_ok_bind {α β : Type} (a : α) (f : α → Act β) : ((.ok a : Act α) >>= f) = f a := rfl

@[simp] theorem act_error_bind {α β : Type} (e : Stop) (f : α → Act β) :
    ((.error e : Act α) >>= f) = .error e := rfl

@[simp] theorem act_pure {α : Type} (a : α) : (pure a : Act α) = .ok a := rfl

/-! ## How an instruction ends -/

@[simp] theorem settle_ok (s t : State) : settle s (.ok t) = .next t := rfl

@[simp] theorem settle_raise (s : State) (e : Exn) : settle s (.error (.raise e)) = raiseExn s e := rfl

@[simp] theorem settle_fault (s : State) (f : Fault) : settle s (.error (.fault f)) = .fault f := rfl

@[simp] theorem settleWith_ok {α : Type} (s : State) (x : α) (k : α → Out) : settleWith s (.ok x) k = k x := rfl

@[simp] theorem settleWith_raise {α : Type} (s : State) (e : Exn) (k : α → Out) :
    settleWith s (.error (.raise e)) k = raiseExn s e := rfl

@[simp] theorem settleWith_fault {α : Type} (s : State) (f : Fault) (k : α → Out) :
    settleWith s (.error (.fault f)) k = .fault f := rfl

/-- A next state comes from the instruction's own effect, or from one exception (R7). -/
theorem settleWith_next {α : Type} {s : State} {r : Act α} {k : α → Out} {t : State}
    (h : settleWith s r k = .next t) :
    (∃ x, r = .ok x ∧ k x = .next t) ∨ ∃ e, r = .error (.raise e) ∧ raiseExn s e = .next t := by
  rcases r with (e | f) | x
  · exact .inr ⟨e, rfl, h⟩
  · cases h
  · exact .inl ⟨x, rfl, h⟩

/-- `settleWith_next` for an instruction that computes its next state. -/
theorem settle_next {s : State} {r : Act State} {t : State} (h : settle s r = .next t) :
    r = .ok t ∨ ∃ e, r = .error (.raise e) ∧ raiseExn s e = .next t := by
  rcases settleWith_next h with ⟨x, rfl, hx⟩ | h
  · cases hx; exact .inl rfl
  · exact .inr h

/-! ## Memory -/

theorem inBounds_iff (s : State) (a : Int) : s.inBounds a = true ↔ 0 ≤ a ∧ a < s.memSize := by
  simp [State.inBounds]

@[simp] theorem setCell_cell_self (s : State) (a : Nat) (w : W64) : (s.setCell a w).cell a = some w := by
  simp [State.cell]

theorem setCell_cell (s : State) (a b : Nat) (w : W64) :
    (s.setCell a w).cell b = if b = a then some w else s.cell b := by
  simp [State.cell, lookup_insert]

theorem setCell_cell_ne (s : State) {a b : Nat} (w : W64) (h : b ≠ a) : (s.setCell a w).cell b = s.cell b := by
  simp [setCell_cell, h]

/-- A read answers the word of a cell in bounds. -/
theorem memRead_ok {s : State} {a : Int} {w : W64} :
    memRead s a = .ok w ↔ s.inBounds a = true ∧ s.cell a.toNat = some w := by
  unfold memRead cellValue
  split
  · cases h : s.cell a.toNat <;> simp [*]
  · simp [*]

/-- A write answers the state with the one cell changed, when it is in bounds. -/
theorem memWrite_ok {s t : State} {a : Int} {w : W64} :
    memWrite s a w = .ok t ↔ s.inBounds a = true ∧ t = s.setCell a.toNat w := by
  unfold memWrite
  split <;> simp [*, eq_comm]

/-- A fetch answers the word of two cells in bounds, the lower half at the lower address (R53). -/
theorem memReadInstr_ok {s : State} {a : Int} {w : W128} :
    memReadInstr s a = .ok w ↔ s.inBounds a = true ∧ s.inBounds (a + 1) = true ∧
      ∃ lo hi, s.cell a.toNat = some lo ∧ s.cell (a + 1).toNat = some hi ∧ w = ofCells lo hi := by
  unfold memReadInstr cellValue ofCells
  split
  · rename_i h
    simp only [Bool.and_eq_true] at h
    cases h1 : s.cell a.toNat <;> cases h2 : s.cell (a + 1).toNat <;> simp [h.1, h.2, eq_comm]
  · rename_i h
    simp only [Bool.and_eq_true] at h
    simp
    tauto

theorem addrOf_ok {w : W64} {n : Int} : addrOf w = .ok n ↔ toInt w = some n := by
  unfold addrOf
  cases toInt w <;> simp

/-! ## The stack -/

/-- A push stores at the cell below the top and moves RSP to it (R190). -/
theorem push_ok {s t : State} {w : W64} :
    push s w = .ok t ↔ ∃ top, toInt (s.reg .rsp) = some top ∧ s.inBounds (top - 1) = true ∧
      t = (s.setCell (top - 1).toNat w).setReg .rsp (ofInt (top - 1)) := by
  constructor
  · intro h
    obtain ⟨top, h1, h⟩ := act_bind_ok h
    obtain ⟨u, h2, h⟩ := act_bind_ok h
    obtain ⟨h3, rfl⟩ := memWrite_ok.1 h2
    exact ⟨top, addrOf_ok.1 h1, h3, by cases h; rfl⟩
  · rintro ⟨top, h1, h2, rfl⟩
    simp [push, addrOf_ok.2 h1, memWrite_ok.2 ⟨h2, rfl⟩]

/-- The top of the stack is the cell RSP addresses (R191). -/
theorem peek_ok {s : State} {p : Int × W64} :
    peek s = .ok p ↔ toInt (s.reg .rsp) = some p.1 ∧ s.inBounds p.1 = true ∧ s.cell p.1.toNat = some p.2 := by
  constructor
  · intro h
    obtain ⟨top, h1, h⟩ := act_bind_ok h
    obtain ⟨w, h2, h⟩ := act_bind_ok h
    cases h
    exact ⟨addrOf_ok.1 h1, memRead_ok.1 h2⟩
  · rintro ⟨h1, h2⟩
    simp [peek, addrOf_ok.2 h1, memRead_ok.2 h2]

/-- A pop answers the top cell and moves RSP one cell up; memory keeps the cell (R191). -/
theorem pop_ok {s : State} {r : W64 × State} :
    pop s = .ok r ↔ ∃ top w, toInt (s.reg .rsp) = some top ∧ s.inBounds top = true ∧
      s.cell top.toNat = some w ∧ r = (w, s.setReg .rsp (ofInt (top + 1))) := by
  constructor
  · intro h
    obtain ⟨p, h1, h⟩ := act_bind_ok h
    cases h
    exact ⟨p.1, p.2, (peek_ok.1 h1).1, (peek_ok.1 h1).2.1, (peek_ok.1 h1).2.2, rfl⟩
  · rintro ⟨top, w, h1, h2, h3, rfl⟩
    have : peek s = .ok (top, w) := peek_ok.2 ⟨h1, h2, h3⟩
    simp [pop, this]

/-! ## Vectors and ports -/

theorem setVector_vector (s : State) (v u : Nat) (a : Int) :
    (s.setVector v a).vector u = if u = v then some a else s.vector u := by
  simp [State.vector, lookup_insert]

theorem setPort_port_ne (s : State) {p q : Nat} (v : Port) (h : q ≠ p) : (s.setPort p v).port q = s.port q := by
  unfold State.port
  rw [setPort_ports]
  split
  · rw [lookup_erase_ne _ h]
  · rw [lookup_insert_ne _ _ h]

theorem setPort_port_self {s : State} (h : Sparse.wf s.ports = true) (p : Nat) (v : Port) :
    (s.setPort p v).port p = v := by
  unfold State.port
  rw [setPort_ports]
  split
  · rw [lookup_erase_self h]; simp [*]
  · simp

/-! ## Exceptions -/

/-- Trap entry goes on exactly when the vector is set and the return address can be pushed (R270). -/
theorem trapEntry_next {s t : State} {v : Nat} {ret : Int} :
    trapEntry s v ret = .next t ↔ ∃ handler top, s.vector v = some handler ∧
      toInt (s.reg .rsp) = some top ∧ s.inBounds (top - 1) = true ∧
      t = s.enterHandler (top - 1) ret handler := by
  unfold trapEntry
  constructor
  · intro h
    split at h
    · cases h
    · split at h
      · cases h
      · split at h
        · cases h; exact ⟨_, _, ‹_›, ‹_›, ‹_›, rfl⟩
        · cases h
  · rintro ⟨handler, top, h1, h2, h3, rfl⟩
    rw [h1, h2]
    exact if_pos h3

/-- Trap entry never refuses: it goes on, or is one of the two model faults (R272, R273). -/
theorem trapEntry_cases (s : State) (v : Nat) (ret : Int) :
    (∃ t, trapEntry s v ret = .next t) ∨ trapEntry s v ret = .fault (.unsetVector v) ∨
      trapEntry s v ret = .fault (.doubleFault v) := by
  unfold trapEntry
  split
  · exact .inr (.inl rfl)
  · split
    · exact .inr (.inr rfl)
    · split
      · exact .inl ⟨_, rfl⟩
      · exact .inr (.inr rfl)

/-- The return from a handler (R170): RSP up, `pc` from the stack, one handler less. -/
theorem returnFromHandler_ok {s t : State} :
    returnFromHandler s = .ok t ↔ ∃ top w a, toInt (s.reg .rsp) = some top ∧ s.inBounds top = true ∧
      s.cell top.toNat = some w ∧ toInt w = some a ∧
      t = ((s.setReg .rsp (ofInt (top + 1))).setPc a).setIsrDepth (s.isrDepth - 1) := by
  constructor
  · intro h
    obtain ⟨p, h1, h⟩ := act_bind_ok h
    obtain ⟨a, h2, h⟩ := act_bind_ok h
    cases h
    exact ⟨p.1, p.2, a, (peek_ok.1 h1).1, (peek_ok.1 h1).2.1, (peek_ok.1 h1).2.2, addrOf_ok.1 h2, rfl⟩
  · rintro ⟨top, w, a, h1, h2, h3, h4, rfl⟩
    have : peek s = .ok (top, w) := peek_ok.2 ⟨h1, h2, h3⟩
    simp [returnFromHandler, this, addrOf_ok.2 h4]

/-! ## The canonical form of memory -/

/-- A write of a cell keeps the canonical form. -/
theorem memory_wf_setCell {s : State} (h : Memory.wf s.mem = true) (a : Nat) (w : W64) :
    Memory.wf (s.setCell a w).mem = true := wf_insert a w h

/-- `MemWrite` keeps the canonical form, and the cells within bounds. -/
theorem memory_wf_memWrite {s t : State} {a : Int} {w : W64} (h : Memory.wf s.mem = true)
    (hk : Sparse.keysBelow s.memSize s.mem = true) (ht : memWrite s a w = .ok t) :
    Memory.wf t.mem = true ∧ Sparse.keysBelow t.memSize t.mem = true := by
  obtain ⟨hb, rfl⟩ := memWrite_ok.1 ht
  obtain ⟨h0, h1⟩ := (inBounds_iff s a).1 hb
  have ha : a.toNat < s.memSize := by omega
  exact ⟨wf_insert _ _ h, keysBelow_insert _ hk ha⟩

/-- A push keeps the canonical form. -/
theorem memory_wf_push {s t : State} {w : W64} (h : Memory.wf s.mem = true) (ht : push s w = .ok t) :
    Memory.wf t.mem = true := by
  obtain ⟨top, -, -, rfl⟩ := push_ok.1 ht
  exact wf_insert _ _ h

/-- Trap entry keeps the canonical form. -/
theorem memory_wf_trapEntry {s t : State} {v : Nat} {ret : Int} (h : Memory.wf s.mem = true)
    (ht : trapEntry s v ret = .next t) : Memory.wf t.mem = true := by
  obtain ⟨handler, top, -, -, -, rfl⟩ := trapEntry_next.1 ht
  exact wf_insert _ _ h

/-- Placing an instruction keeps the canonical form. -/
theorem memory_wf_placeInstr {s : State} (h : Memory.wf s.mem = true) (w : W128) :
    Memory.wf (s.placeInstr w).mem = true := by
  refine wf_insert _ _ (wf_insert _ _ ?_)
  show Sparse.wf s.fetchable.mem = true
  unfold State.fetchable
  split <;> exact h

/-- The memory of the reset state is canonical. -/
theorem memory_wf_reset : Memory.wf State.reset.mem = true := rfl

end Sys2Proof.Machine
end

