-- ==== Sys2Proof/Laws/Cycle.lean ====
section
/-! SUPPORT. Once, everything a step can do: the turn it uses up, the move of each agent, and the cases of the
core's step. -/

namespace Sys2Proof.Machine

/-! ## Whose move it is -/

theorem takeTurn_listed {s : State} {x : Turn} {rest : List Turn} (h : s.turns = x :: rest) :
    s.takeTurn = (x, s.setTurns rest) := by
  simp only [State.takeTurn, h]

theorem takeTurn_free {s : State} (h : s.turns = []) :
    s.takeTurn = (Config.schedule s.moves, { s with moves := s.moves + 1 }) := by
  simp only [State.takeTurn, h]

/-- Using up a turn changes nothing but the model's own record of whose turn it is. -/
theorem takeTurn_eq (s : State) :
    s.takeTurn.2 = { s with turns := s.takeTurn.2.turns, moves := s.takeTurn.2.moves } := by
  unfold State.takeTurn
  split <;> rfl

@[simp] theorem takeTurn_regs (s : State) : s.takeTurn.2.regs = s.regs := by rw [takeTurn_eq]
@[simp] theorem takeTurn_pc (s : State) : s.takeTurn.2.pc = s.pc := by rw [takeTurn_eq]
@[simp] theorem takeTurn_ir (s : State) : s.takeTurn.2.ir = s.ir := by rw [takeTurn_eq]
@[simp] theorem takeTurn_rflags (s : State) : s.takeTurn.2.rflags = s.rflags := by rw [takeTurn_eq]
@[simp] theorem takeTurn_ivt (s : State) : s.takeTurn.2.ivt = s.ivt := by rw [takeTurn_eq]
@[simp] theorem takeTurn_isrDepth (s : State) : s.takeTurn.2.isrDepth = s.isrDepth := by rw [takeTurn_eq]
@[simp] theorem takeTurn_pending (s : State) : s.takeTurn.2.pending = s.pending := by rw [takeTurn_eq]
@[simp] theorem takeTurn_halted (s : State) : s.takeTurn.2.halted = s.halted := by rw [takeTurn_eq]
@[simp] theorem takeTurn_ports (s : State) : s.takeTurn.2.ports = s.ports := by rw [takeTurn_eq]
@[simp] theorem takeTurn_mem (s : State) : s.takeTurn.2.mem = s.mem := by rw [takeTurn_eq]
@[simp] theorem takeTurn_memSize (s : State) : s.takeTurn.2.memSize = s.memSize := by rw [takeTurn_eq]
@[simp] theorem takeTurn_draws (s : State) : s.takeTurn.2.draws = s.draws := by rw [takeTurn_eq]

/-! ## The moves -/

/-- An agent outside the core changes nothing but `pending` and the ports (R236, R260). -/
theorem agentStep_eq (x : Turn) (s : State) :
    agentStep x s = { s with pending := (agentStep x s).pending, ports := (agentStep x s).ports } := by
  cases x <;> rfl

theorem moveOf_core (s : State) : moveOf .core s = coreStep s := rfl

theorem moveOf_agent {x : Turn} (h : x ≠ .core) (s : State) : moveOf x s = .next (agentStep x s) := by
  cases x <;> first | rfl | exact absurd rfl h

/-- A step is the core's, or that of one other agent. -/
theorem step_next {s t : State} (h : step s = .next t) :
    (s.takeTurn.1 = .core ∧ coreStep s.takeTurn.2 = .next t) ∨
      (s.takeTurn.1 ≠ .core ∧ t = agentStep s.takeTurn.1 s.takeTurn.2) := by
  change moveOf s.takeTurn.1 s.takeTurn.2 = .next t at h
  by_cases hc : s.takeTurn.1 = .core
  · exact .inl ⟨hc, by rwa [hc, moveOf_core] at h⟩
  · rw [moveOf_agent hc] at h
    exact .inr ⟨hc, by injection h with h; exact h.symm⟩

/-- What the core's step that goes on has done (R12): taken an interrupt, stayed halted, executed the word it
fetched, or raised the exception of its fetch. -/
theorem coreStep_next {s t : State} (h : coreStep s = .next t) :
    (s.interruptible = true ∧ takeInterrupt s = .next t) ∨
    (s.interruptible = false ∧ s.halted = true ∧ t = s) ∨
    (s.interruptible = false ∧ s.halted = false ∧
      ((∃ w, fetch s = .ok w ∧ execWord s w = .next t) ∨
        ∃ e, fetch s = .error (.raise e) ∧ raiseExn s e = .next t)) := by
  unfold coreStep at h
  cases hi : s.interruptible
  · cases hh : s.halted <;> simp only [hi, hh, Bool.false_eq_true, if_false, if_true] at h
    · exact .inr (.inr ⟨rfl, rfl, settleWith_next h⟩)
    · exact .inr (.inl ⟨rfl, rfl, by injection h with h; exact h.symm⟩)
  · simp only [hi, if_true] at h
    exact .inl ⟨rfl, h⟩

/-- What the execution of a fetched word is (R12): the instruction's, or InvalidOpcode. -/
theorem execWord_next {s t : State} {w : W128} (h : execWord s w = .next t) :
    (∃ i, decode w = .ok i ∧ exec i (s.setIr w) = .next t) ∨
      ((∃ e, decode w = .error e) ∧ raiseExn (s.setIr w) .invalidOpcode = .next t) := by
  unfold execWord at h
  split at h
  · exact .inl ⟨_, ‹_›, h⟩
  · exact .inr ⟨⟨_, ‹_›⟩, h⟩

end Sys2Proof.Machine
end

