-- ==== Sys2Proof/Laws/Decode.lean ====
section
/-! SUPPORT. The fields of an assembled word (spec/30_encoding.md R82), and an instruction word through
memory (R53). -/

namespace Sys2Proof

@[simp] theorem opcodeField_assemble (op : BitVec 8) (first : BitVec 16) (second : W64) :
    opcodeField (assemble op first second) = op := by
  apply BitVec.eq_of_getLsbD_eq
  intro i hi
  simp only [opcodeField, assemble, BitVec.getLsbD_extractLsb', BitVec.getLsbD_append]
  have h1 : i < 64 := by omega
  have h2 : i < 24 := by omega
  simp [hi, h1, h2]

@[simp] theorem firstField_assemble (op : BitVec 8) (first : BitVec 16) (second : W64) :
    firstField (assemble op first second) = first := by
  apply BitVec.eq_of_getLsbD_eq
  intro i hi
  simp only [firstField, assemble, BitVec.getLsbD_extractLsb', BitVec.getLsbD_append]
  have h1 : 8 + i < 64 := by omega
  have h2 : 8 + i < 24 := by omega
  have h3 : ¬ 8 + i < 8 := by omega
  simp [hi, h1, h2]

@[simp] theorem secondField_assemble (op : BitVec 8) (first : BitVec 16) (second : W64) :
    secondField (assemble op first second) = second := by
  apply BitVec.eq_of_getLsbD_eq
  intro i hi
  simp only [secondField, assemble, BitVec.getLsbD_extractLsb', BitVec.getLsbD_append]
  have h1 : ¬ 64 + i < 64 := by omega
  simp [hi]

/-- A word put in two cells is read back whole. -/
@[simp] theorem ofCells_cells (w : W128) : ofCells (lowCell w) (highCell w) = w := by
  apply BitVec.eq_of_getLsbD_eq
  intro i hi
  simp only [ofCells, lowCell, highCell, BitVec.getLsbD_append, BitVec.getLsbD_extractLsb']
  by_cases h : i < 64
  · simp [h]
  · have h1 : i - 64 < 64 := by omega
    have h2 : 64 + (i - 64) = i := by omega
    simp [h, h1, h2]

theorem decodeTableWord_eq (nbits w : Nat) :
    decodeTableWord nbits w = match decode (tableWord nbits w) with | .ok i => some i | .error _ => none :=
  congrArg (fun v => match decode v with | .ok i => some i | .error _ => none) (ofCells_cells (tableWord nbits w))

end Sys2Proof
end

