-- ==== Sys2Proof/Laws/Numerics.lean ====
section
/-! SUPPORT. Small laws of the numerics and of the flags. -/

namespace Sys2Proof.Machine

/-- Whatever the free word is, a NaN result is a NaN (R116). -/
theorem isNaN_nanWord (free : W64) : isNaN (nanWord free) = true := by
  unfold nanWord
  split
  · assumption
  · decide

/-- Every NaN pattern is possible (R116). -/
theorem nanWord_of_isNaN {w : W64} (h : isNaN w = true) : nanWord w = w := by simp [nanWord, h]

/-- A NaN result leaves all three flags 0, whichever NaN it is (R28). -/
theorem flagsOf_of_isNaN {w : W64} (h : isNaN w = true) : flagsOf w = flagsOfNum .nan := by
  simp only [isNaN, Bool.and_eq_true, beq_iff_eq, bne_iff_ne] at h
  simp [flagsOf, flagsOfNum, isFinite, isZero, isNaN, h.1, h.2]

/-- Every word of `S(a)` is possible as RAND's result (R115). -/
theorem randWord_of_inRange {a w : W64} (ha : isNaN a = false) (h : inRandRange a w = true) :
    randWord a w = w := by simp [randWord, ha, h]

/-- POPF's reading of a number undoes PUSHF's (R193, R195). -/
@[simp] theorem flagsOfNumber_flagsNumber (f : Flags) : flagsOfNumber (flagsNumber f) = f := by
  rcases f with ⟨_ | _, _ | _, _ | _⟩ <;> rfl

/-- RFLAGS reads back the flags written to it (R27). -/
@[simp] theorem setFlags_flags (s : State) (f : Flags) : (s.setFlags f).flags = f := by
  have h : ∀ g : Flags, Flags.mk ((packFlags g).getLsbD 0) ((packFlags g).getLsbD 1)
      ((packFlags g).getLsbD 2) = g := by
    rintro ⟨_ | _, _ | _, _ | _⟩ <;> decide
  exact h f

/-- The reserved bits of RFLAGS are 0 after every write (R27). -/
theorem packFlags_reserved (f : Flags) : packFlags f >>> 3 = 0#64 := by
  rcases f with ⟨_ | _, _ | _, _ | _⟩ <;> rfl

end Sys2Proof.Machine
end

