-- ==== Sys2Proof/Laws/Operands.lean ====
section
/-! SUPPORT. For each operand form, once, everything it can do. -/

namespace Sys2Proof.Machine

theorem opreg_ok {r : RegNum} {x : Reg} : opreg r = .ok x ↔ regOf r = some x := by
  unfold opreg
  cases regOf r <;> simp

/-- The operand-register check passes or raises InvalidRegister (R7). -/
theorem opreg_cases (r : RegNum) :
    (∃ x, regOf r = some x ∧ opreg r = .ok x) ∨
      (regOf r = none ∧ opreg r = .error (.raise .invalidRegister)) := by
  unfold opreg
  cases regOf r <;> simp

/-- A valid register number is exactly one that names an operand register (R23). -/
theorem regOf_isSome (r : RegNum) : (regOf r).isSome = RegNum.wellFormed r := by
  rcases r with _ | (n | n)
  · rfl
  · by_cases h : n < 10
    · interval_cases n <;> rfl
    · have h1 : regOfNat n = none := by
        unfold regOfNat
        split <;> first | rfl | omega
      simp [regOf, h1, RegNum.wellFormed, validRegNums]
      omega
  · simp [regOf, RegNum.wellFormed, validRegNums]

/-- An address form answers the integer its register holds, relative or absolute (R58, R165). -/
theorem target_ok {ty : AddrType} {s : State} {r : Reg} {a : Int} :
    target ty s r = .ok a ↔ ∃ k, toInt (s.reg r) = some k ∧ a = effective ty s k := by
  constructor
  · intro h
    obtain ⟨k, h1, h⟩ := act_bind_ok h
    cases h
    exact ⟨k, addrOf_ok.1 h1, rfl⟩
  · rintro ⟨k, h1, rfl⟩
    simp [target, addrOf_ok.2 h1]

/-- A port register answers a port number 0 to 127 (R230). -/
theorem portOf_ok {s : State} {q : Reg} {p : Nat} :
    portOf s q = .ok p ↔ toInt (s.reg q) = some (p : Int) ∧ p < Config.nPorts := by
  unfold portOf
  rcases toInt (s.reg q) with _ | (n | n)
  · simp
  · by_cases h : n < Config.nPorts
    · simp [h]; rintro rfl; exact h
    · simp [h]; rintro rfl; omega
  · simp

/-- A vector register answers a vector 0 to 511 (R218). -/
theorem vectorOf_ok {s : State} {r : Reg} {v : Nat} :
    vectorOf s r = .ok v ↔ toInt (s.reg r) = some (v : Int) ∧ v < Config.nVectors := by
  unfold vectorOf
  rcases toInt (s.reg r) with _ | (n | n)
  · simp
  · by_cases h : n < Config.nVectors
    · simp [h]; rintro rfl; exact h
    · simp [h]; rintro rfl; omega
  · simp

/-- A vector field answers itself when it names an entry (R89). -/
theorem vectorField_ok {v : BitVec 16} {n : Nat} :
    vectorField v = .ok n ↔ n = v.toNat ∧ v.toNat < Config.nVectors := by
  unfold vectorField
  split <;> simp [*, eq_comm]

theorem natOf_some {n : Option Int} {k : Nat} : natOf n = some k ↔ n = some (k : Int) := by
  rcases n with _ | (m | m) <;> simp [natOf]

/-- RET's count: 0 without operand, else the non-negative integer in the register (R168). -/
theorem retCount_inReg_ok {s : State} {r : RegNum} {k : Nat} :
    retCount s (.inReg r) = .ok k ↔ ∃ x, regOf r = some x ∧ toInt (s.reg x) = some (k : Int) := by
  constructor
  · intro h
    obtain ⟨x, h1, h⟩ := act_bind_ok h
    refine ⟨x, opreg_ok.1 h1, ?_⟩
    cases h2 : natOf (toInt (s.reg x)) with
    | none => simp [h2] at h
    | some m => simp [h2] at h; subst h; exact natOf_some.1 h2
  · rintro ⟨x, h1, h2⟩
    have h3 : natOf (toInt (s.reg x)) = some k := natOf_some.2 h2
    simp [retCount, opreg_ok.2 h1, h3]

@[simp] theorem retCount_noOperand (s : State) : retCount s .noOperand = .ok 0 := rfl

end Sys2Proof.Machine
end

