-- ==== Sys2Proof/Laws/PerInstr.lean ====
section
/-! SUPPORT. Statements about every instruction, one lemma per constructor of Instr. -/

namespace Sys2Proof.Laws

/-- The word an instruction is encoded in carries that instruction's opcode in bits 7:0, and the opcode is
one of the table's, 0 to 67 (R94). -/
def EncodedOpcode.Statement (i : Instr) : Prop :=
  opcodeField (encode i) = (fieldsOf i).op ∧ (fieldsOf i).op.toNat ≤ 67

theorem EncodedOpcode.add (dst : RegNum) (src : RegNum) : EncodedOpcode.Statement (.add dst src) :=
  ⟨opcodeField_assemble _ _ _, (by decide : (0 : BitVec 8).toNat ≤ 67)⟩

theorem EncodedOpcode.sub (dst : RegNum) (src : RegNum) : EncodedOpcode.Statement (.sub dst src) :=
  ⟨opcodeField_assemble _ _ _, (by decide : (1 : BitVec 8).toNat ≤ 67)⟩

theorem EncodedOpcode.mul (dst : RegNum) (src : RegNum) : EncodedOpcode.Statement (.mul dst src) :=
  ⟨opcodeField_assemble _ _ _, (by decide : (2 : BitVec 8).toNat ≤ 67)⟩

theorem EncodedOpcode.div (dst : RegNum) (src : RegNum) : EncodedOpcode.Statement (.div dst src) :=
  ⟨opcodeField_assemble _ _ _, (by decide : (3 : BitVec 8).toNat ≤ 67)⟩

theorem EncodedOpcode.idiv (dst : RegNum) (src : RegNum) : EncodedOpcode.Statement (.idiv dst src) :=
  ⟨opcodeField_assemble _ _ _, (by decide : (4 : BitVec 8).toNat ≤ 67)⟩

theorem EncodedOpcode.mod (dst : RegNum) (src : RegNum) : EncodedOpcode.Statement (.mod dst src) :=
  ⟨opcodeField_assemble _ _ _, (by decide : (5 : BitVec 8).toNat ≤ 67)⟩

theorem EncodedOpcode.exp (dst : RegNum) (src : RegNum) : EncodedOpcode.Statement (.exp dst src) :=
  ⟨opcodeField_assemble _ _ _, (by decide : (6 : BitVec 8).toNat ≤ 67)⟩

theorem EncodedOpcode.expe (dst : RegNum) : EncodedOpcode.Statement (.expe dst) :=
  ⟨opcodeField_assemble _ _ _, (by decide : (7 : BitVec 8).toNat ≤ 67)⟩

theorem EncodedOpcode.log (dst : RegNum) : EncodedOpcode.Statement (.log dst) :=
  ⟨opcodeField_assemble _ _ _, (by decide : (8 : BitVec 8).toNat ≤ 67)⟩

theorem EncodedOpcode.logn (dst : RegNum) : EncodedOpcode.Statement (.logn dst) :=
  ⟨opcodeField_assemble _ _ _, (by decide : (9 : BitVec 8).toNat ≤ 67)⟩

theorem EncodedOpcode.sqrt (dst : RegNum) : EncodedOpcode.Statement (.sqrt dst) :=
  ⟨opcodeField_assemble _ _ _, (by decide : (10 : BitVec 8).toNat ≤ 67)⟩

theorem EncodedOpcode.max (dst : RegNum) (src : RegNum) : EncodedOpcode.Statement (.max dst src) :=
  ⟨opcodeField_assemble _ _ _, (by decide : (11 : BitVec 8).toNat ≤ 67)⟩

theorem EncodedOpcode.min (dst : RegNum) (src : RegNum) : EncodedOpcode.Statement (.min dst src) :=
  ⟨opcodeField_assemble _ _ _, (by decide : (12 : BitVec 8).toNat ≤ 67)⟩

theorem EncodedOpcode.flr (dst : RegNum) : EncodedOpcode.Statement (.flr dst) :=
  ⟨opcodeField_assemble _ _ _, (by decide : (13 : BitVec 8).toNat ≤ 67)⟩

theorem EncodedOpcode.ceil (dst : RegNum) : EncodedOpcode.Statement (.ceil dst) :=
  ⟨opcodeField_assemble _ _ _, (by decide : (14 : BitVec 8).toNat ≤ 67)⟩

theorem EncodedOpcode.abs (dst : RegNum) : EncodedOpcode.Statement (.abs dst) :=
  ⟨opcodeField_assemble _ _ _, (by decide : (15 : BitVec 8).toNat ≤ 67)⟩

theorem EncodedOpcode.sin (dst : RegNum) : EncodedOpcode.Statement (.sin dst) :=
  ⟨opcodeField_assemble _ _ _, (by decide : (16 : BitVec 8).toNat ≤ 67)⟩

theorem EncodedOpcode.cos (dst : RegNum) : EncodedOpcode.Statement (.cos dst) :=
  ⟨opcodeField_assemble _ _ _, (by decide : (17 : BitVec 8).toNat ≤ 67)⟩

theorem EncodedOpcode.tan (dst : RegNum) : EncodedOpcode.Statement (.tan dst) :=
  ⟨opcodeField_assemble _ _ _, (by decide : (18 : BitVec 8).toNat ≤ 67)⟩

theorem EncodedOpcode.asin (dst : RegNum) : EncodedOpcode.Statement (.asin dst) :=
  ⟨opcodeField_assemble _ _ _, (by decide : (19 : BitVec 8).toNat ≤ 67)⟩

theorem EncodedOpcode.acos (dst : RegNum) : EncodedOpcode.Statement (.acos dst) :=
  ⟨opcodeField_assemble _ _ _, (by decide : (20 : BitVec 8).toNat ≤ 67)⟩

theorem EncodedOpcode.atan (dst : RegNum) : EncodedOpcode.Statement (.atan dst) :=
  ⟨opcodeField_assemble _ _ _, (by decide : (21 : BitVec 8).toNat ≤ 67)⟩

theorem EncodedOpcode.rand (dst : RegNum) : EncodedOpcode.Statement (.rand dst) :=
  ⟨opcodeField_assemble _ _ _, (by decide : (22 : BitVec 8).toNat ≤ 67)⟩

theorem EncodedOpcode.inc (dst : RegNum) : EncodedOpcode.Statement (.inc dst) :=
  ⟨opcodeField_assemble _ _ _, (by decide : (23 : BitVec 8).toNat ≤ 67)⟩

theorem EncodedOpcode.dec (dst : RegNum) : EncodedOpcode.Statement (.dec dst) :=
  ⟨opcodeField_assemble _ _ _, (by decide : (24 : BitVec 8).toNat ≤ 67)⟩

theorem EncodedOpcode.cmp (v1 : RegNum) (v2 : RegNum) : EncodedOpcode.Statement (.cmp v1 v2) :=
  ⟨opcodeField_assemble _ _ _, (by decide : (25 : BitVec 8).toNat ≤ 67)⟩

theorem EncodedOpcode.and (dst : RegNum) (src : RegNum) : EncodedOpcode.Statement (.and dst src) :=
  ⟨opcodeField_assemble _ _ _, (by decide : (26 : BitVec 8).toNat ≤ 67)⟩

theorem EncodedOpcode.or (dst : RegNum) (src : RegNum) : EncodedOpcode.Statement (.or dst src) :=
  ⟨opcodeField_assemble _ _ _, (by decide : (27 : BitVec 8).toNat ≤ 67)⟩

theorem EncodedOpcode.xor (dst : RegNum) (src : RegNum) : EncodedOpcode.Statement (.xor dst src) :=
  ⟨opcodeField_assemble _ _ _, (by decide : (28 : BitVec 8).toNat ≤ 67)⟩

theorem EncodedOpcode.not (dst : RegNum) : EncodedOpcode.Statement (.not dst) :=
  ⟨opcodeField_assemble _ _ _, (by decide : (29 : BitVec 8).toNat ≤ 67)⟩

theorem EncodedOpcode.shl (dst : RegNum) (src : RegNum) : EncodedOpcode.Statement (.shl dst src) :=
  ⟨opcodeField_assemble _ _ _, (by decide : (30 : BitVec 8).toNat ≤ 67)⟩

theorem EncodedOpcode.shr (dst : RegNum) (src : RegNum) : EncodedOpcode.Statement (.shr dst src) :=
  ⟨opcodeField_assemble _ _ _, (by decide : (31 : BitVec 8).toNat ≤ 67)⟩

theorem EncodedOpcode.test (v1 : RegNum) (v2 : RegNum) : EncodedOpcode.Statement (.test v1 v2) :=
  ⟨opcodeField_assemble _ _ _, (by decide : (32 : BitVec 8).toNat ≤ 67)⟩

theorem EncodedOpcode.call (ty : AddrType) (target : RegNum) : EncodedOpcode.Statement (.call ty target) :=
  ⟨opcodeField_assemble _ _ _, (by decide : (33 : BitVec 8).toNat ≤ 67)⟩

theorem EncodedOpcode.ret (count : RetCount) : EncodedOpcode.Statement (.ret count) :=
  ⟨opcodeField_assemble _ _ _, (by decide : (34 : BitVec 8).toNat ≤ 67)⟩

theorem EncodedOpcode.hlt : EncodedOpcode.Statement .hlt :=
  ⟨opcodeField_assemble _ _ _, (by decide : (35 : BitVec 8).toNat ≤ 67)⟩

theorem EncodedOpcode.iret : EncodedOpcode.Statement .iret :=
  ⟨opcodeField_assemble _ _ _, (by decide : (36 : BitVec 8).toNat ≤ 67)⟩

theorem EncodedOpcode.jmp (ty : AddrType) (target : RegNum) : EncodedOpcode.Statement (.jmp ty target) :=
  ⟨opcodeField_assemble _ _ _, (by decide : (37 : BitVec 8).toNat ≤ 67)⟩

theorem EncodedOpcode.jp (ty : AddrType) (target : RegNum) : EncodedOpcode.Statement (.jp ty target) :=
  ⟨opcodeField_assemble _ _ _, (by decide : (38 : BitVec 8).toNat ≤ 67)⟩

theorem EncodedOpcode.jnp (ty : AddrType) (target : RegNum) : EncodedOpcode.Statement (.jnp ty target) :=
  ⟨opcodeField_assemble _ _ _, (by decide : (39 : BitVec 8).toNat ≤ 67)⟩

theorem EncodedOpcode.jz (ty : AddrType) (target : RegNum) : EncodedOpcode.Statement (.jz ty target) :=
  ⟨opcodeField_assemble _ _ _, (by decide : (40 : BitVec 8).toNat ≤ 67)⟩

theorem EncodedOpcode.jnz (ty : AddrType) (target : RegNum) : EncodedOpcode.Statement (.jnz ty target) :=
  ⟨opcodeField_assemble _ _ _, (by decide : (41 : BitVec 8).toNat ≤ 67)⟩

theorem EncodedOpcode.js (ty : AddrType) (target : RegNum) : EncodedOpcode.Statement (.js ty target) :=
  ⟨opcodeField_assemble _ _ _, (by decide : (42 : BitVec 8).toNat ≤ 67)⟩

theorem EncodedOpcode.jns (ty : AddrType) (target : RegNum) : EncodedOpcode.Statement (.jns ty target) :=
  ⟨opcodeField_assemble _ _ _, (by decide : (43 : BitVec 8).toNat ≤ 67)⟩

theorem EncodedOpcode.jl (ty : AddrType) (target : RegNum) : EncodedOpcode.Statement (.jl ty target) :=
  ⟨opcodeField_assemble _ _ _, (by decide : (44 : BitVec 8).toNat ≤ 67)⟩

theorem EncodedOpcode.jle (ty : AddrType) (target : RegNum) : EncodedOpcode.Statement (.jle ty target) :=
  ⟨opcodeField_assemble _ _ _, (by decide : (45 : BitVec 8).toNat ≤ 67)⟩

theorem EncodedOpcode.jg (ty : AddrType) (target : RegNum) : EncodedOpcode.Statement (.jg ty target) :=
  ⟨opcodeField_assemble _ _ _, (by decide : (46 : BitVec 8).toNat ≤ 67)⟩

theorem EncodedOpcode.jge (ty : AddrType) (target : RegNum) : EncodedOpcode.Statement (.jge ty target) :=
  ⟨opcodeField_assemble _ _ _, (by decide : (47 : BitVec 8).toNat ≤ 67)⟩

theorem EncodedOpcode.loop (ty : AddrType) (target : RegNum) : EncodedOpcode.Statement (.loop ty target) :=
  ⟨opcodeField_assemble _ _ _, (by decide : (48 : BitVec 8).toNat ≤ 67)⟩

theorem EncodedOpcode.push (src : RegNum) : EncodedOpcode.Statement (.push src) :=
  ⟨opcodeField_assemble _ _ _, (by decide : (49 : BitVec 8).toNat ≤ 67)⟩

theorem EncodedOpcode.pushf : EncodedOpcode.Statement .pushf :=
  ⟨opcodeField_assemble _ _ _, (by decide : (50 : BitVec 8).toNat ≤ 67)⟩

theorem EncodedOpcode.pop (dst : RegNum) : EncodedOpcode.Statement (.pop dst) :=
  ⟨opcodeField_assemble _ _ _, (by decide : (51 : BitVec 8).toNat ≤ 67)⟩

theorem EncodedOpcode.popf : EncodedOpcode.Statement .popf :=
  ⟨opcodeField_assemble _ _ _, (by decide : (52 : BitVec 8).toNat ≤ 67)⟩

theorem EncodedOpcode.mov (dst : RegNum) (src : RegNum) : EncodedOpcode.Statement (.mov dst src) :=
  ⟨opcodeField_assemble _ _ _, (by decide : (53 : BitVec 8).toNat ≤ 67)⟩

theorem EncodedOpcode.swp (r1 : RegNum) (r2 : RegNum) : EncodedOpcode.Statement (.swp r1 r2) :=
  ⟨opcodeField_assemble _ _ _, (by decide : (54 : BitVec 8).toNat ≤ 67)⟩

theorem EncodedOpcode.load (ty : AddrType) (dst : RegNum) : EncodedOpcode.Statement (.load ty dst) :=
  ⟨opcodeField_assemble _ _ _, (by decide : (55 : BitVec 8).toNat ≤ 67)⟩

theorem EncodedOpcode.strr (addr : RegNum) (src : RegNum) : EncodedOpcode.Statement (.strr addr src) :=
  ⟨opcodeField_assemble _ _ _, (by decide : (56 : BitVec 8).toNat ≤ 67)⟩

theorem EncodedOpcode.stra (addr : RegNum) (src : RegNum) : EncodedOpcode.Statement (.stra addr src) :=
  ⟨opcodeField_assemble _ _ _, (by decide : (57 : BitVec 8).toNat ≤ 67)⟩

theorem EncodedOpcode.ldi (dst : RegNum) (imm : W64) : EncodedOpcode.Statement (.ldi dst imm) :=
  ⟨opcodeField_assemble _ _ _, (by decide : (58 : BitVec 8).toNat ≤ 67)⟩

theorem EncodedOpcode.rip (dst : RegNum) : EncodedOpcode.Statement (.rip dst) :=
  ⟨opcodeField_assemble _ _ _, (by decide : (59 : BitVec 8).toNat ≤ 67)⟩

theorem EncodedOpcode.setisrr (v : BitVec 16) (addr : RegNum) : EncodedOpcode.Statement (.setisrr v addr) :=
  ⟨opcodeField_assemble _ _ _, (by decide : (60 : BitVec 8).toNat ≤ 67)⟩

theorem EncodedOpcode.setisra (v : BitVec 16) (addr : RegNum) : EncodedOpcode.Statement (.setisra v addr) :=
  ⟨opcodeField_assemble _ _ _, (by decide : (61 : BitVec 8).toNat ≤ 67)⟩

theorem EncodedOpcode.int (vec : RegNum) : EncodedOpcode.Statement (.int vec) :=
  ⟨opcodeField_assemble _ _ _, (by decide : (62 : BitVec 8).toNat ≤ 67)⟩

theorem EncodedOpcode.nop : EncodedOpcode.Statement .nop :=
  ⟨opcodeField_assemble _ _ _, (by decide : (63 : BitVec 8).toNat ≤ 67)⟩

theorem EncodedOpcode.inp (dst : RegNum) (port : RegNum) : EncodedOpcode.Statement (.inp dst port) :=
  ⟨opcodeField_assemble _ _ _, (by decide : (64 : BitVec 8).toNat ≤ 67)⟩

theorem EncodedOpcode.outp (src : RegNum) (port : RegNum) : EncodedOpcode.Statement (.outp src port) :=
  ⟨opcodeField_assemble _ _ _, (by decide : (65 : BitVec 8).toNat ≤ 67)⟩

theorem EncodedOpcode.inr (dst : RegNum) (port : RegNum) : EncodedOpcode.Statement (.inr dst port) :=
  ⟨opcodeField_assemble _ _ _, (by decide : (66 : BitVec 8).toNat ≤ 67)⟩

theorem EncodedOpcode.outr (dst : RegNum) (port : RegNum) : EncodedOpcode.Statement (.outr dst port) :=
  ⟨opcodeField_assemble _ _ _, (by decide : (67 : BitVec 8).toNat ≤ 67)⟩

end Sys2Proof.Laws
end

