-- ==== Sys2Proof/Tests/Slice0.lean ====
section
/-! SUPPORT. The model's own tests. The expected results are the derived vectors of spec/95_test_vectors.md
(their ids in the docstrings) or the named rule; each test is one step on a small state. The witnesses at the
end meet the hypotheses of the statements of Certificates/Slice0/Obligations.lean. -/

namespace Sys2Proof.Tests

set_option Elab.async false

open Sys2Proof Sys2Proof.Machine Sys2Proof.Spec

/-! ## Well-formedness -/

/-- Every check refuses an ill-formed operand: a special register, no integer, a vector above 511 (R86, R87,
R89). -/
theorem test_ill_formed_refused : ∀ i ∈ ([
      .add (some 6) (some 9), .add none (some 9), .add (some 9) (some 6), .add (some 9) none,
      .sub (some 6) (some 9), .sub (some 9) (some 6), .mul (some 6) (some 9), .mul (some 9) (some 6),
      .div (some 6) (some 9), .div (some 9) (some 6), .idiv (some 6) (some 9), .idiv (some 9) (some 6),
      .mod (some 6) (some 9), .mod (some 9) (some 6), .exp (some 6) (some 9), .exp (some 9) (some 6),
      .expe (some 6), .log (some 6), .logn (some 6), .sqrt (some 6),
      .max (some 6) (some 9), .max (some 9) (some 6), .min (some 6) (some 9), .min (some 9) (some 6),
      .flr (some 6), .ceil (some 6), .abs (some 6), .sin (some 6),
      .cos (some 6), .tan (some 6), .asin (some 6), .acos (some 6),
      .atan (some 6), .rand (some 6), .inc (some 6), .dec (some 6),
      .cmp (some 6) (some 9), .cmp (some 9) (some 6), .and (some 6) (some 9), .and (some 9) (some 6),
      .or (some 6) (some 9), .or (some 9) (some 6), .xor (some 6) (some 9), .xor (some 9) (some 6),
      .not (some 6), .shl (some 6) (some 9)] : List Instr),
    i.wellFormed = false := by decide

/-- The rest of `test_ill_formed_refused`. -/
theorem test_ill_formed_refused_2 : ∀ i ∈ ([
      .shl (some 9) (some 6), .shr (some 6) (some 9), .shr (some 9) (some 6), .test (some 6) (some 9),
      .test (some 9) (some 6), .call .relative (some 6), .ret (.inReg (some 10)), .jmp .relative (some 6),
      .jmp .relative none, .jp .relative (some 6), .jnp .relative (some 6), .jz .relative (some 6),
      .jnz .relative (some 6), .js .relative (some 6), .jns .relative (some 6), .jl .relative (some 6),
      .jle .relative (some 6), .jg .relative (some 6), .jge .relative (some 6), .loop .relative (some 6),
      .push (some 6), .pop (some 6), .mov (some 6) (some 9), .mov (some 9) (some 6),
      .swp (some 6) (some 9), .swp (some 9) (some 6), .load .relative (some 6), .strr (some 6) (some 9),
      .strr (some 9) (some 6), .stra (some 6) (some 9), .stra (some 9) (some 6), .ldi (some 6) 0,
      .rip (some 6), .setisrr 512 (some 9), .setisrr 511 (some 6), .setisrr 511 none,
      .setisra 512 (some 9), .setisra 511 (some 6), .int (some 6), .inp (some 6) (some 9),
      .inp (some 9) (some 6), .outp (some 6) (some 9), .outp (some 9) (some 6), .inr (some 6) (some 9),
      .inr (some 9) (some 6), .outr (some 6) (some 9), .outr (some 9) (some 6)] : List Instr),
    i.wellFormed = false := by decide

/-- One well-formed term of every constructor. -/
theorem test_well_formed_accepted : ∀ i ∈ ([
      .add (some 9) (some 9), .sub (some 9) (some 9), .mul (some 9) (some 9), .div (some 9) (some 9), .idiv (some 9) (some 9),
      .mod (some 9) (some 9), .exp (some 9) (some 9), .expe (some 9), .log (some 9), .logn (some 9),
      .sqrt (some 9), .max (some 9) (some 9), .min (some 9) (some 9), .flr (some 9), .ceil (some 9),
      .abs (some 9), .sin (some 9), .cos (some 9), .tan (some 9), .asin (some 9),
      .acos (some 9), .atan (some 9), .rand (some 9), .inc (some 9), .dec (some 9),
      .cmp (some 9) (some 9), .and (some 9) (some 9), .or (some 9) (some 9), .xor (some 9) (some 9), .not (some 9),
      .shl (some 9) (some 9), .shr (some 9) (some 9), .test (some 9) (some 9), .call .relative (some 9), .ret .noOperand,
      .hlt, .iret, .jmp .relative (some 9), .jp .relative (some 9), .jnp .relative (some 9),
      .jz .relative (some 9), .jnz .relative (some 9), .js .relative (some 9), .jns .relative (some 9), .jl .relative (some 9),
      .jle .relative (some 9), .jg .relative (some 9), .jge .relative (some 9), .loop .relative (some 9), .push (some 9),
      .pushf, .pop (some 9), .popf, .mov (some 9) (some 9), .swp (some 9) (some 9),
      .load .relative (some 9), .strr (some 9) (some 9), .stra (some 9) (some 9), .ldi (some 9) 0, .rip (some 9),
      .setisrr 511 (some 9), .setisra 511 (some 9), .int (some 9), .nop, .inp (some 9) (some 9),
      .outp (some 9) (some 9), .inr (some 9) (some 9), .outr (some 9) (some 9)] : List Instr),
    i.wellFormed = true := by decide

/-! ## Decoding -/

/-- A word of every instruction of the family, written out from R82, R84, R87 and the opcode map R94. -/
theorem test_decode_math : ∀ e ∈ [
      (0x40000000000000000000000000000100#128, Instr.add (some 1) (some 2)),
      (0x40220000000000000000000000000401#128, .sub (some 4) (some 9)),
      (0x40100000000000000000000000000902#128, .mul (some 9) (some 4)),
      (0x3FF00000000000000000000000000203#128, .div (some 2) (some 1)),
      (0x40200000000000000000000000000504#128, .idiv (some 5) (some 8)),
      (0x40080000000000000000000000000005#128, .mod (some 0) (some 3)),
      (0x00000000000000000000000000000306#128, .exp (some 3) (some 0)),
      (0x00000000000000000000000000000807#128, .expe (some 8)),
      (0x00000000000000000000000000000108#128, .log (some 1)),
      (0x00000000000000000000000000000409#128, .logn (some 4)),
      (0x0000000000000000000000000000090A#128, .sqrt (some 9)),
      (0x3FF0000000000000000000000000020B#128, .max (some 2) (some 1)),
      (0x4020000000000000000000000000050C#128, .min (some 5) (some 8)),
      (0x0000000000000000000000000000000D#128, .flr (some 0)),
      (0x0000000000000000000000000000030E#128, .ceil (some 3)),
      (0x0000000000000000000000000000080F#128, .abs (some 8)),
      (0x00000000000000000000000000000110#128, .sin (some 1)),
      (0x00000000000000000000000000000411#128, .cos (some 4)),
      (0x00000000000000000000000000000912#128, .tan (some 9)),
      (0x00000000000000000000000000000213#128, .asin (some 2)),
      (0x00000000000000000000000000000514#128, .acos (some 5)),
      (0x00000000000000000000000000000015#128, .atan (some 0)),
      (0x00000000000000000000000000000316#128, .rand (some 3)),
      (0x00000000000000000000000000000817#128, .inc (some 8)),
      (0x00000000000000000000000000000118#128, .dec (some 1)),
      (0x40220000000000000000000000000419#128, .cmp (some 4) (some 9))], decode e.1 = .ok e.2 := by decide +kernel

/-- A word of every instruction of the family, written out from R82, R84, R87 and the opcode map R94. -/
theorem test_decode_bitwise : ∀ e ∈ [
      (0x4010000000000000000000000000091A#128, Instr.and (some 9) (some 4)),
      (0x3FF0000000000000000000000000021B#128, .or (some 2) (some 1)),
      (0x4020000000000000000000000000051C#128, .xor (some 5) (some 8)),
      (0x0000000000000000000000000000001D#128, .not (some 0)),
      (0x0000000000000000000000000000031E#128, .shl (some 3) (some 0)),
      (0x4014000000000000000000000000081F#128, .shr (some 8) (some 5)),
      (0x40000000000000000000000000000120#128, .test (some 1) (some 2))], decode e.1 = .ok e.2 := by decide +kernel

/-- A word of every instruction of the family, written out from R82, R84, R87 and the opcode map R94. -/
theorem test_decode_control_flow : ∀ e ∈ [
      (0x40220000000000000000000000000121#128, Instr.call .absolute (some 9)),
      (0x00000000000000000000000000000922#128, .ret (.inReg (some 9))),
      (0x00000000000000000000000000000023#128, .hlt),
      (0x00000000000000000000000000000024#128, .iret),
      (0x40080000000000000000000000000125#128, .jmp .absolute (some 3)),
      (0x00000000000000000000000000000026#128, .jp .relative (some 0)),
      (0x40140000000000000000000000000127#128, .jnp .absolute (some 5)),
      (0x40000000000000000000000000000028#128, .jz .relative (some 2)),
      (0x40220000000000000000000000000129#128, .jnz .absolute (some 9)),
      (0x4010000000000000000000000000002A#128, .js .relative (some 4)),
      (0x3FF0000000000000000000000000012B#128, .jns .absolute (some 1)),
      (0x4020000000000000000000000000002C#128, .jl .relative (some 8)),
      (0x4008000000000000000000000000012D#128, .jle .absolute (some 3)),
      (0x0000000000000000000000000000002E#128, .jg .relative (some 0)),
      (0x4014000000000000000000000000012F#128, .jge .absolute (some 5)),
      (0x40000000000000000000000000000030#128, .loop .relative (some 2))], decode e.1 = .ok e.2 := by decide +kernel

/-- A word of every instruction of the family, written out from R82, R84, R87 and the opcode map R94. -/
theorem test_decode_stack : ∀ e ∈ [
      (0x00000000000000000000000000000431#128, Instr.push (some 4)),
      (0x00000000000000000000000000000032#128, .pushf),
      (0x00000000000000000000000000000233#128, .pop (some 2)),
      (0x00000000000000000000000000000034#128, .popf)], decode e.1 = .ok e.2 := by decide +kernel

/-- A word of every instruction of the family, written out from R82, R84, R87 and the opcode map R94. -/
theorem test_decode_data : ∀ e ∈ [
      (0x40080000000000000000000000000035#128, Instr.mov (some 0) (some 3)),
      (0x00000000000000000000000000000336#128, .swp (some 3) (some 0)),
      (0x40140000000000000000000000000137#128, .load .absolute (some 5)),
      (0x40000000000000000000000000000138#128, .strr (some 1) (some 2)),
      (0x40220000000000000000000000000439#128, .stra (some 4) (some 9)),
      (0xC010000000000000000000000000093A#128, .ldi (some 9) 0xC010000000000000#64),
      (0x0000000000000000000000000000023B#128, .rip (some 2))], decode e.1 = .ok e.2 := by decide +kernel

/-- A word of every instruction of the family, written out from R82, R84, R87 and the opcode map R94. -/
theorem test_decode_interrupt : ∀ e ∈ [
      (0x4020000000000000000000000001683C#128, Instr.setisrr 360 (some 8)),
      (0x4008000000000000000000000001693D#128, .setisra 361 (some 3)),
      (0x0000000000000000000000000000033E#128, .int (some 3))], decode e.1 = .ok e.2 := by decide +kernel

/-- A word of every instruction of the family, written out from R82, R84, R87 and the opcode map R94. -/
theorem test_decode_other : ∀ e ∈ [
      (0x0000000000000000000000000000003F#128, Instr.nop)], decode e.1 = .ok e.2 := by decide +kernel

/-- A word of every instruction of the family, written out from R82, R84, R87 and the opcode map R94. -/
theorem test_decode_io : ∀ e ∈ [
      (0x40000000000000000000000000000140#128, Instr.inp (some 1) (some 2)),
      (0x40220000000000000000000000000441#128, .outp (some 4) (some 9)),
      (0x40100000000000000000000000000942#128, .inr (some 9) (some 4)),
      (0x3FF00000000000000000000000000243#128, .outr (some 2) (some 1))], decode e.1 = .ok e.2 := by decide +kernel

/-- Vectors VE2, VE4, VE6 to VE8, VE17 and VD1, VD2, VD6, VD8 to VD12 of spec/95_test_vectors.md: the two cells
of an instruction and what they decode as. -/
theorem test_decode_vectors : ∀ e ∈ [
      (0x801#64, 0x4022000000000000#64, Instr.sub (some 8) (some 9)),
      (0x125#64, 0x0#64, .jmp .absolute (some 0)),
      (0x1FF3C#64, 0x4022000000000000#64, .setisrr 511 (some 9)),
      (0x222#64, 0x0#64, .ret (.inReg (some 2))),
      (0xFFFF22#64, 0x0#64, .ret .noOperand),
      (0x3A#64, 0x23#64, .ldi (some 0) 0x23#64),
      (0xFFFFFFFFFF000300#64, 0x4014000000000000#64, .add (some 3) (some 5)),
      (0x12343F#64, 0x7FF8000000000000#64, .nop),
      (0x10000#64, 0x3FF0000000000000#64, .add (some 256) (some 1)),
      (0x0#64, 0x3FF8000000000000#64, .add (some 0) none),
      (0x0#64, 0x1#64, .add (some 0) none),
      (0x0#64, 0x8000000000000000#64, .add (some 0) (some 0)),
      (0x10025#64, 0x4008000000000000#64, .jmp .absolute (some 3)),
      (0x2003D#64, 0x4010000000000000#64, .setisra 512 (some 4))], decode (ofCells e.1 e.2.1) = .ok e.2.2 := by decide +kernel

/-- VD3, VD16 (R95): opcodes 68 and 255 are no instruction, whatever the operands. -/
theorem test_decode_illegal_opcodes : decode (ofCells 0x44#64 0#64) = .error (.invalidOpcode 68#8) ∧
    decode (ofCells 0x6FF#64 0x4018000000000000#64) = .error (.invalidOpcode 255#8) := by decide +kernel

/-! ## One instruction -/

/-- The state of the tests: reset, `pc` 10, RSP 64.0, the Processor Exceptions handled at 100, the core to move
next. -/
def base : State :=
  { State.reset with
    pc := 10
    regs := { Regs.reset with rsp := 0x4050000000000000#64 }
    ivt := [(0, 100), (1, 100), (2, 100), (3, 100), (4, 100), (5, 100)]
    turns := [.core] }

/-- What `f` reads of the next state, if there is one. -/
def reads {α : Type} (o : Out) (f : State → α) : Option α :=
  match o with
  | .next t => some (f t)
  | .fault _ => none
  | .refused _ => none

/-- The fault of an outcome, if it is one. -/
def faultOf (o : Out) : Option Fault :=
  match o with
  | .next _ => none
  | .fault f => some f
  | .refused _ => none

/-- VM2 (R111, R118). -/
theorem test_add_rounds :
    reads (exec (.add (some 0) (some 1))
      ({ base with regs := { base.regs with rax := 0x3FB999999999999A#64, rbx := 0x3FC999999999999A#64 } }))
    (fun t => (t.reg .rax, t.reg .rbx, t.pc)) =
    some (0x3FD3333333333334#64, 0x3FC999999999999A#64, 12) := by
  decide +kernel

/-- VM3 (R111). -/
theorem test_add_tie_to_even :
    reads (exec (.add (some 0) (some 1))
      ({ base with regs := { base.regs with rax := 0x4340000000000000#64, rbx := 0x3FF0000000000000#64 } }))
    (fun t => (t.reg .rax, t.reg .rbx, t.pc)) =
    some (0x4340000000000000#64, 0x3FF0000000000000#64, 12) := by
  decide +kernel

/-- VM7 (R119). -/
theorem test_sub_order :
    reads (exec (.sub (some 0) (some 1))
      ({ base with regs := { base.regs with rax := 0x4014000000000000#64, rbx := 0x401C000000000000#64 } }))
    (fun t => (t.reg .rax, t.reg .rbx, t.pc)) =
    some (0xC000000000000000#64, 0x401C000000000000#64, 12) := by
  decide +kernel

/-- VM9 (R111). -/
theorem test_sub_minus_zero :
    reads (exec (.sub (some 0) (some 1))
      ({ base with regs := { base.regs with rax := 0x8000000000000000#64, rbx := 0x0000000000000000#64 } }))
    (fun t => (t.reg .rax, t.reg .rbx, t.pc)) =
    some (0x8000000000000000#64, 0x0000000000000000#64, 12) := by
  decide +kernel

/-- VM11 (R120). -/
theorem test_mul :
    reads (exec (.mul (some 0) (some 1))
      ({ base with regs := { base.regs with rax := 0x4008000000000000#64, rbx := 0x4008000000000000#64 } }))
    (fun t => (t.reg .rax, t.reg .rbx, t.pc)) =
    some (0x4022000000000000#64, 0x4008000000000000#64, 12) := by
  decide +kernel

/-- VM12 (R111). -/
theorem test_mul_sign_of_zero :
    reads (exec (.mul (some 0) (some 1))
      ({ base with regs := { base.regs with rax := 0xC000000000000000#64, rbx := 0x0000000000000000#64 } }))
    (fun t => (t.reg .rax, t.reg .rbx, t.pc)) =
    some (0x8000000000000000#64, 0x0000000000000000#64, 12) := by
  decide +kernel

/-- VM16 (R121). -/
theorem test_div_rounds :
    reads (exec (.div (some 0) (some 1))
      ({ base with regs := { base.regs with rax := 0x3FF0000000000000#64, rbx := 0x4008000000000000#64 } }))
    (fun t => (t.reg .rax, t.reg .rbx, t.pc)) =
    some (0x3FD5555555555555#64, 0x4008000000000000#64, 12) := by
  decide +kernel

/-- VM18, VX2 (R117, R266, R270). -/
theorem test_div_by_minus_zero_raises :
    reads (exec (.div (some 0) (some 1))
      ({ base with regs := { base.regs with rax := 0x3FF0000000000000#64, rbx := 0x8000000000000000#64 } }))
    (fun t => (t.reg .rax, t.cell 63, t.reg .rsp, t.isrDepth, t.pc)) =
    some (0x3FF0000000000000#64, some 0x4028000000000000#64, 0x404F800000000000#64, 1, 100) := by
  decide +kernel

/-- VM24 (R122). -/
theorem test_idiv_floors :
    reads (exec (.idiv (some 0) (some 1))
      ({ base with regs := { base.regs with rax := 0xC01C000000000000#64, rbx := 0x4000000000000000#64 } }))
    (fun t => (t.reg .rax, t.reg .rbx, t.pc)) =
    some (0xC010000000000000#64, 0x4000000000000000#64, 12) := by
  decide +kernel

/-- VM28 (R112). -/
theorem test_idiv_exact_quotient :
    reads (exec (.idiv (some 0) (some 1))
      ({ base with regs := { base.regs with rax := 0x3FF0000000000000#64, rbx := 0x3FB999999999999A#64 } }))
    (fun t => (t.reg .rax, t.reg .rbx, t.pc)) =
    some (0x4022000000000000#64, 0x3FB999999999999A#64, 12) := by
  decide +kernel

/-- VM35 (R123). -/
theorem test_mod_sign_of_divisor :
    reads (exec (.mod (some 0) (some 1))
      ({ base with regs := { base.regs with rax := 0x401C000000000000#64, rbx := 0xC000000000000000#64 } }))
    (fun t => (t.reg .rax, t.reg .rbx, t.pc)) =
    some (0xBFF0000000000000#64, 0xC000000000000000#64, 12) := by
  decide +kernel

/-- VM39 (R112). -/
theorem test_mod_exact_remainder :
    reads (exec (.mod (some 0) (some 1))
      ({ base with regs := { base.regs with rax := 0x3FF0000000000000#64, rbx := 0x3FB999999999999A#64 } }))
    (fun t => (t.reg .rax, t.reg .rbx, t.pc)) =
    some (0x3FB9999999999996#64, 0x3FB999999999999A#64, 12) := by
  decide +kernel

/-- R124: the Destination is the base. -/
theorem test_exp_operand_order :
    reads (exec (.exp (some 0) (some 1))
      ({ base with regs := { base.regs with rax := 0x4000000000000000#64, rbx := 0x4008000000000000#64 } }))
    (fun t => (t.reg .rax, t.pc)) =
    some (Config.pow 0x4000000000000000#64 0x4008000000000000#64, 12) := by
  rfl

/-- R125: the constant E is the exponent. -/
theorem test_expe_is_power_of_e :
    reads (exec (.expe (some 0))
      ({ base with regs := { base.regs with rax := 0x3FF0000000000000#64 } }))
    (fun t => (t.reg .rax, t.pc)) =
    some (Config.pow 0x3FF0000000000000#64 0x4005BF0A8B145769#64, 12) := by
  rfl

/-- R126: an OPEN function of the operand. -/
theorem test_log :
    reads (exec (.log (some 0))
      ({ base with regs := { base.regs with rax := 0x3FF0000000000000#64 } }))
    (fun t => (t.reg .rax, t.pc)) =
    some (Config.log10 0x3FF0000000000000#64, 12) := by
  rfl

/-- R127: an OPEN function of the operand. -/
theorem test_logn :
    reads (exec (.logn (some 0))
      ({ base with regs := { base.regs with rax := 0x3FF0000000000000#64 } }))
    (fun t => (t.reg .rax, t.pc)) =
    some (Config.ln 0x3FF0000000000000#64, 12) := by
  rfl

/-- R134: an OPEN function of the operand. -/
theorem test_sin :
    reads (exec (.sin (some 0))
      ({ base with regs := { base.regs with rax := 0x3FF0000000000000#64 } }))
    (fun t => (t.reg .rax, t.pc)) =
    some (Config.sin 0x3FF0000000000000#64, 12) := by
  rfl

/-- R135: an OPEN function of the operand. -/
theorem test_cos :
    reads (exec (.cos (some 0))
      ({ base with regs := { base.regs with rax := 0x3FF0000000000000#64 } }))
    (fun t => (t.reg .rax, t.pc)) =
    some (Config.cos 0x3FF0000000000000#64, 12) := by
  rfl

/-- R136: an OPEN function of the operand. -/
theorem test_tan :
    reads (exec (.tan (some 0))
      ({ base with regs := { base.regs with rax := 0x3FF0000000000000#64 } }))
    (fun t => (t.reg .rax, t.pc)) =
    some (Config.tan 0x3FF0000000000000#64, 12) := by
  rfl

/-- R137: an OPEN function of the operand. -/
theorem test_asin :
    reads (exec (.asin (some 0))
      ({ base with regs := { base.regs with rax := 0x3FF0000000000000#64 } }))
    (fun t => (t.reg .rax, t.pc)) =
    some (Config.asin 0x3FF0000000000000#64, 12) := by
  rfl

/-- R138: an OPEN function of the operand. -/
theorem test_acos :
    reads (exec (.acos (some 0))
      ({ base with regs := { base.regs with rax := 0x3FF0000000000000#64 } }))
    (fun t => (t.reg .rax, t.pc)) =
    some (Config.acos 0x3FF0000000000000#64, 12) := by
  rfl

/-- R139: an OPEN function of the operand. -/
theorem test_atan :
    reads (exec (.atan (some 0))
      ({ base with regs := { base.regs with rax := 0x3FF0000000000000#64 } }))
    (fun t => (t.reg .rax, t.pc)) =
    some (Config.atan 0x3FF0000000000000#64, 12) := by
  rfl

/-- VM45 (R128). -/
theorem test_sqrt_rounds :
    reads (exec (.sqrt (some 0))
      ({ base with regs := { base.regs with rax := 0x4000000000000000#64 } }))
    (fun t => (t.reg .rax, t.pc)) =
    some (0x3FF6A09E667F3BCD#64, 12) := by
  decide +kernel

/-- VM47 (R111). -/
theorem test_sqrt_minus_zero :
    reads (exec (.sqrt (some 0))
      ({ base with regs := { base.regs with rax := 0x8000000000000000#64 } }))
    (fun t => (t.reg .rax, t.pc)) =
    some (0x8000000000000000#64, 12) := by
  decide +kernel

/-- VM48 (R129). -/
theorem test_max :
    reads (exec (.max (some 0) (some 1))
      ({ base with regs := { base.regs with rax := 0x4008000000000000#64, rbx := 0x401C000000000000#64 } }))
    (fun t => (t.reg .rax, t.reg .rbx, t.pc)) =
    some (0x401C000000000000#64, 0x401C000000000000#64, 12) := by
  decide +kernel

/-- VM51 (R113). -/
theorem test_max_nan_keeps :
    reads (exec (.max (some 0) (some 1))
      ({ base with regs := { base.regs with rax := 0x4008000000000000#64, rbx := 0x7FF8000000000000#64 } }))
    (fun t => (t.reg .rax, t.reg .rbx, t.pc)) =
    some (0x4008000000000000#64, 0x7FF8000000000000#64, 12) := by
  decide +kernel

/-- VM53 (R130). -/
theorem test_min :
    reads (exec (.min (some 0) (some 1))
      ({ base with regs := { base.regs with rax := 0x4008000000000000#64, rbx := 0x401C000000000000#64 } }))
    (fun t => (t.reg .rax, t.reg .rbx, t.pc)) =
    some (0x4008000000000000#64, 0x401C000000000000#64, 12) := by
  decide +kernel

/-- VM54 (R130). -/
theorem test_min_source_smaller :
    reads (exec (.min (some 0) (some 1))
      ({ base with regs := { base.regs with rax := 0x401C000000000000#64, rbx := 0x4008000000000000#64 } }))
    (fun t => (t.reg .rax, t.reg .rbx, t.pc)) =
    some (0x4008000000000000#64, 0x4008000000000000#64, 12) := by
  decide +kernel

/-- VM56 (R131). -/
theorem test_flr_negative :
    reads (exec (.flr (some 0))
      ({ base with regs := { base.regs with rax := 0xC00D99999999999A#64 } }))
    (fun t => (t.reg .rax, t.pc)) =
    some (0xC010000000000000#64, 12) := by
  decide +kernel

/-- VM57 (R131). -/
theorem test_flr_zero :
    reads (exec (.flr (some 0))
      ({ base with regs := { base.regs with rax := 0x3FE0000000000000#64 } }))
    (fun t => (t.reg .rax, t.pc)) =
    some (0x0000000000000000#64, 12) := by
  decide +kernel

/-- VM60 (R132). -/
theorem test_ceil :
    reads (exec (.ceil (some 0))
      ({ base with regs := { base.regs with rax := 0x400999999999999A#64 } }))
    (fun t => (t.reg .rax, t.pc)) =
    some (0x4010000000000000#64, 12) := by
  decide +kernel

/-- VM62 (R132). -/
theorem test_ceil_minus_zero :
    reads (exec (.ceil (some 0))
      ({ base with regs := { base.regs with rax := 0xBFE0000000000000#64 } }))
    (fun t => (t.reg .rax, t.pc)) =
    some (0x8000000000000000#64, 12) := by
  decide +kernel

/-- VM65 (R133). -/
theorem test_abs :
    reads (exec (.abs (some 0))
      ({ base with regs := { base.regs with rax := 0xC00C000000000000#64 } }))
    (fun t => (t.reg .rax, t.pc)) =
    some (0x400C000000000000#64, 12) := by
  decide +kernel

/-- VM67 (R133). -/
theorem test_abs_of_nan :
    reads (exec (.abs (some 0))
      ({ base with regs := { base.regs with rax := 0xFFF8000000000001#64 } }))
    (fun t => (t.reg .rax, t.pc)) =
    some (0x7FF8000000000001#64, 12) := by
  decide +kernel

/-- VM84 (R140): the fields the rule fixes. -/
theorem test_rand_completes :
    reads (exec (.rand (some 0))
      ({ base with regs := { base.regs with rax := 0x4024000000000000#64, rbx := 0x401C000000000000#64 } }))
    (fun t => (t.reg .rbx, t.pc, t.rflags)) =
    some (0x401C000000000000#64, 12, 0#64) := by
  decide +kernel

/-- VM71 (R141). -/
theorem test_inc :
    reads (exec (.inc (some 0))
      ({ base with regs := { base.regs with rax := 0x3FE0000000000000#64 } }))
    (fun t => (t.reg .rax, t.pc)) =
    some (0x3FF8000000000000#64, 12) := by
  decide +kernel

/-- VM70 (R141). -/
theorem test_inc_lost_to_rounding :
    reads (exec (.inc (some 0))
      ({ base with regs := { base.regs with rax := 0x4340000000000000#64 } }))
    (fun t => (t.reg .rax, t.pc)) =
    some (0x4340000000000000#64, 12) := by
  decide +kernel

/-- VM72 (R142). -/
theorem test_dec :
    reads (exec (.dec (some 0))
      ({ base with regs := { base.regs with rax := 0x4010000000000000#64 } }))
    (fun t => (t.reg .rax, t.pc)) =
    some (0x4008000000000000#64, 12) := by
  decide +kernel

/-- VM73 (R142). -/
theorem test_dec_to_plus_zero :
    reads (exec (.dec (some 0))
      ({ base with regs := { base.regs with rax := 0x3FF0000000000000#64 } }))
    (fun t => (t.reg .rax, t.pc)) =
    some (0x0000000000000000#64, 12) := by
  decide +kernel

/-- VM75 (R143). -/
theorem test_cmp_subtracts_first_from_second :
    reads (exec (.cmp (some 0) (some 1))
      ({ base with regs := { base.regs with rax := 0x4014000000000000#64, rbx := 0x401C000000000000#64 } }))
    (fun t => (t.reg .rax, t.reg .rbx, t.flags, t.pc)) =
    some (0x4014000000000000#64, 0x401C000000000000#64, ⟨true, false, false⟩, 12) := by
  decide +kernel

/-- VM82 (R143). -/
theorem test_cmp_infinity :
    reads (exec (.cmp (some 0) (some 1))
      ({ base with regs := { base.regs with rax := 0x7FF0000000000000#64, rbx := 0x3FF0000000000000#64 } }))
    (fun t => (t.reg .rax, t.reg .rbx, t.flags, t.pc)) =
    some (0x7FF0000000000000#64, 0x3FF0000000000000#64, ⟨false, false, true⟩, 12) := by
  decide +kernel

/-- VB2 (R151). -/
theorem test_and_negative :
    reads (exec (.and (some 0) (some 1))
      ({ base with regs := { base.regs with rax := 0xBFF0000000000000#64, rbx := 0x406FE00000000000#64 } }))
    (fun t => (t.reg .rax, t.reg .rbx, t.pc)) =
    some (0x406FE00000000000#64, 0x406FE00000000000#64, 12) := by
  decide +kernel

/-- VB4 (R150). -/
theorem test_and_not_integer :
    faultOf (exec (.and (some 0) (some 1))
      ({ base with regs := { base.regs with rax := 0x4018000000000000#64, rbx := 0x4004000000000000#64 } })) =
    some .bitwiseOperandNotInteger := by decide +kernel

/-- VB5 (R152). -/
theorem test_or :
    reads (exec (.or (some 0) (some 1))
      ({ base with regs := { base.regs with rax := 0x4018000000000000#64, rbx := 0x4008000000000000#64 } }))
    (fun t => (t.reg .rax, t.reg .rbx, t.pc)) =
    some (0x401C000000000000#64, 0x4008000000000000#64, 12) := by
  decide +kernel

/-- VB6 (R152). -/
theorem test_or_negative :
    reads (exec (.or (some 0) (some 1))
      ({ base with regs := { base.regs with rax := 0xBFF0000000000000#64, rbx := 0x4014000000000000#64 } }))
    (fun t => (t.reg .rax, t.reg .rbx, t.pc)) =
    some (0xBFF0000000000000#64, 0x4014000000000000#64, 12) := by
  decide +kernel

/-- VB7 (R153). -/
theorem test_xor :
    reads (exec (.xor (some 0) (some 1))
      ({ base with regs := { base.regs with rax := 0x4018000000000000#64, rbx := 0x4008000000000000#64 } }))
    (fun t => (t.reg .rax, t.reg .rbx, t.pc)) =
    some (0x4014000000000000#64, 0x4008000000000000#64, 12) := by
  decide +kernel

/-- VB8 (R153). -/
theorem test_xor_negative :
    reads (exec (.xor (some 0) (some 1))
      ({ base with regs := { base.regs with rax := 0xBFF0000000000000#64, rbx := 0x4014000000000000#64 } }))
    (fun t => (t.reg .rax, t.reg .rbx, t.pc)) =
    some (0xC018000000000000#64, 0x4014000000000000#64, 12) := by
  decide +kernel

/-- VB11 (R154). -/
theorem test_not :
    reads (exec (.not (some 0))
      ({ base with regs := { base.regs with rax := 0x4014000000000000#64 } }))
    (fun t => (t.reg .rax, t.pc)) =
    some (0xC018000000000000#64, 12) := by
  decide +kernel

/-- VB14 (R150). -/
theorem test_not_of_nan :
    faultOf (exec (.not (some 0))
      ({ base with regs := { base.regs with rax := 0x7FF8000000000000#64 } })) =
    some .bitwiseOperandNotInteger := by decide +kernel

/-- VB16 (R155). -/
theorem test_shl_no_width :
    reads (exec (.shl (some 0) (some 1))
      ({ base with regs := { base.regs with rax := 0x3FF0000000000000#64, rbx := 0x4050000000000000#64 } }))
    (fun t => (t.reg .rax, t.reg .rbx, t.pc)) =
    some (0x43F0000000000000#64, 0x4050000000000000#64, 12) := by
  decide +kernel

/-- VB19 (R155). -/
theorem test_shl_to_infinity :
    reads (exec (.shl (some 0) (some 1))
      ({ base with regs := { base.regs with rax := 0x3FF0000000000000#64, rbx := 0x4090000000000000#64 } }))
    (fun t => (t.reg .rax, t.reg .rbx, t.pc)) =
    some (0x7FF0000000000000#64, 0x4090000000000000#64, 12) := by
  decide +kernel

/-- VB23 (R156). -/
theorem test_shr_floors :
    reads (exec (.shr (some 0) (some 1))
      ({ base with regs := { base.regs with rax := 0xC01C000000000000#64, rbx := 0x3FF0000000000000#64 } }))
    (fun t => (t.reg .rax, t.reg .rbx, t.pc)) =
    some (0xC010000000000000#64, 0x3FF0000000000000#64, 12) := by
  decide +kernel

/-- VB20 (R150), of SHR. -/
theorem test_shr_negative_count :
    faultOf (exec (.shr (some 0) (some 1))
      ({ base with regs := { base.regs with rax := 0x3FF0000000000000#64, rbx := 0xBFF0000000000000#64 } })) =
    some .bitwiseOperandNotInteger := by decide +kernel

/-- VB26 (R157). -/
theorem test_test_subtracts_second_from_first :
    reads (exec (.test (some 0) (some 1))
      ({ base with regs := { base.regs with rax := 0x4014000000000000#64, rbx := 0x401C000000000000#64 } }))
    (fun t => (t.reg .rax, t.reg .rbx, t.flags, t.pc)) =
    some (0x4014000000000000#64, 0x401C000000000000#64, ⟨true, false, true⟩, 12) := by
  decide +kernel

/-- VB27 (R157). -/
theorem test_test_is_no_and :
    reads (exec (.test (some 0) (some 1))
      ({ base with regs := { base.regs with rax := 0x401C000000000000#64, rbx := 0x4014000000000000#64 } }))
    (fun t => (t.reg .rax, t.reg .rbx, t.flags, t.pc)) =
    some (0x401C000000000000#64, 0x4014000000000000#64, ⟨true, false, false⟩, 12) := by
  decide +kernel

/-- VC2 (R167). -/
theorem test_call_relative :
    reads (exec (.call .relative (some 4))
      ({ base with regs := { base.regs with rsp := 0x4050000000000000#64, rpx := 0x4018000000000000#64 }, pc := 6 }))
    (fun t => (t.cell 63, t.reg .rsp, t.pc)) =
    some (some 0x4020000000000000#64, 0x404F800000000000#64, 12) := by
  decide +kernel

/-- VC3 (R167). -/
theorem test_call_through_rsp :
    reads (exec (.call .absolute (some 8))
      ({ base with regs := { base.regs with rsp := 0x4050000000000000#64 }, pc := 6 }))
    (fun t => (t.cell 63, t.reg .rsp, t.pc)) =
    some (some 0x4020000000000000#64, 0x404F800000000000#64, 64) := by
  decide +kernel

/-- VC6 (R168). -/
theorem test_ret_without_operand :
    reads (exec (.ret .noOperand)
      ({ base with regs := { base.regs with rsp := 0x404F800000000000#64 }, mem := [(63, 0x4020000000000000#64)] }))
    (fun t => (t.pc, t.reg .rsp, t.cell 63)) =
    some (8, 0x4050000000000000#64, some 0x4020000000000000#64) := by
  decide +kernel

/-- VC7 (R168). -/
theorem test_ret_with_count :
    reads (exec (.ret (.inReg (some 2)))
      ({ base with regs := { base.regs with rsp := 0x404F800000000000#64, rcx := 0x4000000000000000#64 }, mem := [(63, 0x4020000000000000#64)] }))
    (fun t => (t.pc, t.reg .rsp)) =
    some (8, 0x4050800000000000#64) := by
  decide +kernel

/-- VC14 (R169). -/
theorem test_hlt :
    reads (exec (.hlt)
      ({ base with pc := 8 }))
    (fun t => (t.halted, t.pc)) =
    some (true, 10) := by
  decide +kernel

/-- VC15 (R170). -/
theorem test_iret :
    reads (exec (.iret)
      ({ base with regs := { base.regs with rsp := 0x404F800000000000#64 }, mem := [(63, 0x4028000000000000#64)], isrDepth := 1 }))
    (fun t => (t.pc, t.reg .rsp, t.isrDepth)) =
    some (12, 0x4050000000000000#64, 0) := by
  decide +kernel

/-- VC16 (R170). -/
theorem test_iret_outside_a_handler :
    reads (exec (.iret)
      ({ base with regs := { base.regs with rsp := 0x404F800000000000#64 }, mem := [(63, 0x4028000000000000#64)] }))
    (fun t => (t.pc, t.reg .rsp, t.isrDepth)) =
    some (12, 0x4050000000000000#64, 0) := by
  decide +kernel

/-- VC18 (R171). -/
theorem test_jmp_relative :
    reads (exec (.jmp .relative (some 3))
      ({ base with regs := { base.regs with rdx := 0xC018000000000000#64 }, pc := 20 }))
    (fun t => (t.pc)) =
    some (14) := by
  decide +kernel

/-- VC19 (R171). -/
theorem test_jmp_absolute_negative :
    reads (exec (.jmp .absolute (some 3))
      ({ base with regs := { base.regs with rdx := 0xC018000000000000#64 }, pc := 20 }))
    (fun t => (t.pc)) =
    some (-6) := by
  decide +kernel

/-- the table of section 5.3 (R166). -/
theorem test_jp_taken :
    reads (exec (.jp .relative (some 3))
      ({ base with regs := { base.regs with rdx := 0x4010000000000000#64 }, rflags := 1#64 }))
    (fun t => (t.pc)) =
    some (14) := by
  decide +kernel

/-- the table of section 5.3 (R166). -/
theorem test_jp_not_taken :
    reads (exec (.jp .relative (some 3))
      ({ base with regs := { base.regs with rdx := 0x4004000000000000#64 }, rflags := 0#64 }))
    (fun t => (t.pc)) =
    some (12) := by
  decide +kernel

/-- the table of section 5.3 (R166). -/
theorem test_jnp_taken :
    reads (exec (.jnp .relative (some 3))
      ({ base with regs := { base.regs with rdx := 0x4010000000000000#64 }, rflags := 0#64 }))
    (fun t => (t.pc)) =
    some (14) := by
  decide +kernel

/-- the table of section 5.3 (R166). -/
theorem test_jnp_not_taken :
    reads (exec (.jnp .relative (some 3))
      ({ base with regs := { base.regs with rdx := 0x4004000000000000#64 }, rflags := 1#64 }))
    (fun t => (t.pc)) =
    some (12) := by
  decide +kernel

/-- the table of section 5.3 (R166). -/
theorem test_jz_taken :
    reads (exec (.jz .relative (some 3))
      ({ base with regs := { base.regs with rdx := 0x4010000000000000#64 }, rflags := 3#64 }))
    (fun t => (t.pc)) =
    some (14) := by
  decide +kernel

/-- the table of section 5.3 (R166). -/
theorem test_jz_not_taken :
    reads (exec (.jz .relative (some 3))
      ({ base with regs := { base.regs with rdx := 0x4004000000000000#64 }, rflags := 1#64 }))
    (fun t => (t.pc)) =
    some (12) := by
  decide +kernel

/-- the table of section 5.3 (R166). -/
theorem test_jnz_taken :
    reads (exec (.jnz .relative (some 3))
      ({ base with regs := { base.regs with rdx := 0x4010000000000000#64 }, rflags := 1#64 }))
    (fun t => (t.pc)) =
    some (14) := by
  decide +kernel

/-- the table of section 5.3 (R166). -/
theorem test_jnz_not_taken :
    reads (exec (.jnz .relative (some 3))
      ({ base with regs := { base.regs with rdx := 0x4004000000000000#64 }, rflags := 3#64 }))
    (fun t => (t.pc)) =
    some (12) := by
  decide +kernel

/-- the table of section 5.3 (R166). -/
theorem test_js_taken :
    reads (exec (.js .relative (some 3))
      ({ base with regs := { base.regs with rdx := 0x4010000000000000#64 }, rflags := 4#64 }))
    (fun t => (t.pc)) =
    some (14) := by
  decide +kernel

/-- the table of section 5.3 (R166). -/
theorem test_js_not_taken :
    reads (exec (.js .relative (some 3))
      ({ base with regs := { base.regs with rdx := 0x4004000000000000#64 }, rflags := 1#64 }))
    (fun t => (t.pc)) =
    some (12) := by
  decide +kernel

/-- the table of section 5.3 (R166). -/
theorem test_jns_taken :
    reads (exec (.jns .relative (some 3))
      ({ base with regs := { base.regs with rdx := 0x4010000000000000#64 }, rflags := 1#64 }))
    (fun t => (t.pc)) =
    some (14) := by
  decide +kernel

/-- the table of section 5.3 (R166). -/
theorem test_jns_not_taken :
    reads (exec (.jns .relative (some 3))
      ({ base with regs := { base.regs with rdx := 0x4004000000000000#64 }, rflags := 4#64 }))
    (fun t => (t.pc)) =
    some (12) := by
  decide +kernel

/-- the table of section 5.3 (R166). -/
theorem test_jl_taken :
    reads (exec (.jl .relative (some 3))
      ({ base with regs := { base.regs with rdx := 0x4010000000000000#64 }, rflags := 4#64 }))
    (fun t => (t.pc)) =
    some (14) := by
  decide +kernel

/-- the table of section 5.3 (R166). -/
theorem test_jl_not_taken :
    reads (exec (.jl .relative (some 3))
      ({ base with regs := { base.regs with rdx := 0x4004000000000000#64 }, rflags := 3#64 }))
    (fun t => (t.pc)) =
    some (12) := by
  decide +kernel

/-- the table of section 5.3 (R166). -/
theorem test_jle_taken :
    reads (exec (.jle .relative (some 3))
      ({ base with regs := { base.regs with rdx := 0x4010000000000000#64 }, rflags := 3#64 }))
    (fun t => (t.pc)) =
    some (14) := by
  decide +kernel

/-- the table of section 5.3 (R166). -/
theorem test_jle_not_taken :
    reads (exec (.jle .relative (some 3))
      ({ base with regs := { base.regs with rdx := 0x4004000000000000#64 }, rflags := 1#64 }))
    (fun t => (t.pc)) =
    some (12) := by
  decide +kernel

/-- the table of section 5.3 (R166). -/
theorem test_jg_taken :
    reads (exec (.jg .relative (some 3))
      ({ base with regs := { base.regs with rdx := 0x4010000000000000#64 }, rflags := 1#64 }))
    (fun t => (t.pc)) =
    some (14) := by
  decide +kernel

/-- the table of section 5.3 (R166). -/
theorem test_jg_not_taken :
    reads (exec (.jg .relative (some 3))
      ({ base with regs := { base.regs with rdx := 0x4004000000000000#64 }, rflags := 3#64 }))
    (fun t => (t.pc)) =
    some (12) := by
  decide +kernel

/-- the table of section 5.3 (R166). -/
theorem test_jge_taken :
    reads (exec (.jge .relative (some 3))
      ({ base with regs := { base.regs with rdx := 0x4010000000000000#64 }, rflags := 3#64 }))
    (fun t => (t.pc)) =
    some (14) := by
  decide +kernel

/-- the table of section 5.3 (R166). -/
theorem test_jge_not_taken :
    reads (exec (.jge .relative (some 3))
      ({ base with regs := { base.regs with rdx := 0x4004000000000000#64 }, rflags := 4#64 }))
    (fun t => (t.pc)) =
    some (12) := by
  decide +kernel

/-- VC24 (R182). -/
theorem test_loop_taken :
    reads (exec (.loop .relative (some 3))
      ({ base with regs := { base.regs with rcx := 0x4008000000000000#64, rdx := 0xC010000000000000#64 } }))
    (fun t => (t.pc, t.reg .rcx)) =
    some (6, 0x4008000000000000#64) := by
  decide +kernel

/-- VC26 (R182). -/
theorem test_loop_minus_zero :
    reads (exec (.loop .relative (some 3))
      ({ base with regs := { base.regs with rcx := 0x8000000000000000#64, rdx := 0x4004000000000000#64 } }))
    (fun t => (t.pc)) =
    some (12) := by
  decide +kernel

/-- VS2 (R192). -/
theorem test_push_rsp :
    reads (exec (.push (some 8))
      ({ base with regs := { base.regs with rsp := 0x4050000000000000#64 } }))
    (fun t => (t.cell 63, t.reg .rsp, t.pc)) =
    some (some 0x4050000000000000#64, 0x404F800000000000#64, 12) := by
  decide +kernel

/-- VS3 (R190). -/
theorem test_push_first_on_empty_stack :
    reads (exec (.push (some 0))
      ({ base with regs := { base.regs with rsp := 0x4070000000000000#64, rax := 0x4014000000000000#64 } }))
    (fun t => (t.cell 255, t.reg .rsp, t.pc)) =
    some (some 0x4014000000000000#64, 0x406FE00000000000#64, 12) := by
  decide +kernel

/-- VS11 (R193). -/
theorem test_pushf :
    reads (exec (.pushf)
      ({ base with regs := { base.regs with rsp := 0x4050000000000000#64 }, rflags := 5#64 }))
    (fun t => (t.cell 63, t.reg .rsp, t.pc)) =
    some (some 0x4014000000000000#64, 0x404F800000000000#64, 12) := by
  decide +kernel

/-- VS7 (R194). -/
theorem test_pop :
    reads (exec (.pop (some 1))
      ({ base with regs := { base.regs with rsp := 0x404F800000000000#64 }, mem := [(63, 0x4014000000000000#64)] }))
    (fun t => (t.reg .rbx, t.reg .rsp, t.pc)) =
    some (0x4014000000000000#64, 0x4050000000000000#64, 12) := by
  decide +kernel

/-- VS8 (R194). -/
theorem test_pop_rsp :
    reads (exec (.pop (some 8))
      ({ base with regs := { base.regs with rsp := 0x404F800000000000#64 }, mem := [(63, 0x4044000000000000#64)] }))
    (fun t => (t.reg .rsp, t.pc)) =
    some (0x4044000000000000#64, 12) := by
  decide +kernel

/-- VS16 (R195). -/
theorem test_popf_ignores_bit_3 :
    reads (exec (.popf)
      ({ base with regs := { base.regs with rsp := 0x404F800000000000#64 }, mem := [(63, 0x402A000000000000#64)] }))
    (fun t => (t.flags, t.reg .rsp, t.pc)) =
    some (⟨true, false, true⟩, 0x4050000000000000#64, 12) := by
  decide +kernel

/-- VS20 (R195). -/
theorem test_popf_not_a_flags_word :
    faultOf (exec (.popf)
      ({ base with regs := { base.regs with rsp := 0x404F800000000000#64 }, mem := [(63, 0xBFF0000000000000#64)] })) =
    some .popfNotFlagsWord := by decide +kernel

/-- VT2 (R200). -/
theorem test_mov_keeps_the_pattern :
    reads (exec (.mov (some 0) (some 1))
      ({ base with regs := { base.regs with rbx := 0x7FF0000000000001#64 } }))
    (fun t => (t.reg .rax, t.reg .rbx, t.pc)) =
    some (0x7FF0000000000001#64, 0x7FF0000000000001#64, 12) := by
  decide +kernel

/-- VT5 (R201). -/
theorem test_swp :
    reads (exec (.swp (some 0) (some 1))
      ({ base with regs := { base.regs with rax := 0x4014000000000000#64, rbx := 0x401C000000000000#64 } }))
    (fun t => (t.reg .rax, t.reg .rbx, t.pc)) =
    some (0x401C000000000000#64, 0x4014000000000000#64, 12) := by
  decide +kernel

/-- VT11 (R202). -/
theorem test_load_relative_negative :
    reads (exec (.load .relative (some 1))
      ({ base with regs := { base.regs with rbx := 0xC030000000000000#64 }, pc := 16, mem := [(0, 0x000000000000003A#64)] }))
    (fun t => (t.reg .rbx, t.pc)) =
    some (0x000000000000003A#64, 18) := by
  decide +kernel

/-- VT15 (R202). -/
theorem test_load_last_cell :
    reads (exec (.load .absolute (some 1))
      ({ base with regs := { base.regs with rbx := 0x406FE00000000000#64 }, mem := [(255, 0x4022000000000000#64)] }))
    (fun t => (t.reg .rbx, t.pc)) =
    some (0x4022000000000000#64, 12) := by
  decide +kernel

/-- VT16 (R203). -/
theorem test_strr :
    reads (exec (.strr (some 1) (some 0))
      ({ base with regs := { base.regs with rbx := 0x403A000000000000#64, rax := 0x4008000000000000#64 }, pc := 14 }))
    (fun t => (t.cell 40, t.pc)) =
    some (some 0x4008000000000000#64, 16) := by
  decide +kernel

/-- VT20 (R204). -/
theorem test_stra :
    reads (exec (.stra (some 1) (some 0))
      ({ base with regs := { base.regs with rbx := 0x4044000000000000#64, rax := 0x4008000000000000#64 } }))
    (fun t => (t.cell 40, t.pc)) =
    some (some 0x4008000000000000#64, 12) := by
  decide +kernel

/-- VT21 (R204, R270). -/
theorem test_stra_out_of_bounds_raises :
    reads (exec (.stra (some 1) (some 0))
      ({ base with regs := { base.regs with rbx := 0x4070000000000000#64, rax := 0x4008000000000000#64 } }))
    (fun t => (t.cell 63, t.isrDepth, t.pc)) =
    some (some 0x4028000000000000#64, 1, 100) := by
  decide +kernel

/-- VD15 (R205). -/
theorem test_ldi_keeps_the_pattern :
    reads (exec (.ldi (some 0) 0x7FF0000000000001#64)
      (base))
    (fun t => (t.reg .rax, t.pc)) =
    some (0x7FF0000000000001#64, 12) := by
  decide +kernel

/-- VT25 (R206). -/
theorem test_rip :
    reads (exec (.rip (some 0))
      ({ base with pc := 20 }))
    (fun t => (t.reg .rax, t.pc)) =
    some (0x4034000000000000#64, 22) := by
  decide +kernel

/-- VI2 (R216). -/
theorem test_setisrr :
    reads (exec (.setisrr 0 (some 4))
      ({ base with regs := { base.regs with rpx := 0xC034000000000000#64 }, pc := 40 }))
    (fun t => (t.vector 0, t.vector 1, t.pc)) =
    some (some 20, some 100, 42) := by
  decide +kernel

/-- VI4 (R217). -/
theorem test_setisra_last_vector :
    reads (exec (.setisra 511 (some 4))
      ({ base with regs := { base.regs with rpx := 0x4030000000000000#64 } }))
    (fun t => (t.vector 511, t.pc)) =
    some (some 16, 12) := by
  decide +kernel

/-- VI7 (R215). -/
theorem test_setisra_past_the_table :
    faultOf (exec (.setisra 512 (some 4))
      ({ base with regs := { base.regs with rpx := 0x4030000000000000#64 } })) =
    some .vectorOutOfRange := by decide +kernel

/-- VI12 (R218, R274). -/
theorem test_int_inside_a_handler :
    reads (exec (.int (some 0))
      ({ base with regs := { base.regs with rax := 0x4060000000000000#64, rsp := 0x404F800000000000#64 }, isrDepth := 1, ivt := [(128, 40)] }))
    (fun t => (t.cell 62, t.reg .rsp, t.isrDepth, t.pc)) =
    some (some 0x4028000000000000#64, 0x404F000000000000#64, 2, 40) := by
  decide +kernel

/-- VI16 (R273). -/
theorem test_int_without_stack :
    faultOf (exec (.int (some 0))
      ({ base with regs := { base.regs with rax := 0x4060000000000000#64, rsp := 0x0000000000000000#64 }, ivt := [(128, 40)] })) =
    some (.doubleFault 128) := by decide +kernel

/-- VO1 (R225). -/
theorem test_nop :
    reads (exec (.nop)
      (base))
    (fun t => (t.pc)) =
    some (12) := by
  decide +kernel

/-- VP1 (R231). -/
theorem test_in :
    reads (exec (.inp (some 0) (some 1))
      ({ base with regs := { base.regs with rbx := 0x4008000000000000#64 }, ports := [(3, ⟨0x4045000000000000#64, true, 0x0000000000000000#64, false⟩)] }))
    (fun t => (t.reg .rax, t.port 3, t.pc)) =
    some (0x4045000000000000#64, ⟨0x4045000000000000#64, false, 0x0000000000000000#64, false⟩, 12) := by
  decide +kernel

/-- VX7 (R235, R255). -/
theorem test_in_not_ready_is_vector_4 :
    reads (exec (.inp (some 0) (some 1))
      ({ base with regs := { base.regs with rbx := 0x4008000000000000#64 }, ivt := [(4, 100)] }))
    (fun t => (t.cell 63, t.pc)) =
    some (some 0x4028000000000000#64, 100) := by
  decide +kernel

/-- VP9 (R232). -/
theorem test_out :
    reads (exec (.outp (some 0) (some 1))
      ({ base with regs := { base.regs with rbx := 0x4008000000000000#64, rax := 0x4045000000000000#64 }, ports := [(3, ⟨0x0000000000000000#64, false, 0x0000000000000000#64, true⟩)] }))
    (fun t => (t.port 3, t.pc)) =
    some (⟨0x0000000000000000#64, false, 0x4045000000000000#64, true⟩, 12) := by
  decide +kernel

/-- VP10 (R235). -/
theorem test_out_not_ready :
    reads (exec (.outp (some 0) (some 1))
      ({ base with regs := { base.regs with rbx := 0x4008000000000000#64, rax := 0x4045000000000000#64 } }))
    (fun t => (t.port 3, t.isrDepth, t.pc)) =
    some (⟨0#64, false, 0#64, false⟩, 1, 100) := by
  decide +kernel

/-- VP13 (R233). -/
theorem test_inr :
    reads (exec (.inr (some 0) (some 1))
      ({ base with regs := { base.regs with rbx := 0x4008000000000000#64 }, ports := [(3, ⟨0x4045000000000000#64, true, 0x0000000000000000#64, false⟩)] }))
    (fun t => (t.reg .rax, t.port 3, t.pc)) =
    some (0x3FF0000000000000#64, ⟨0x4045000000000000#64, true, 0x0000000000000000#64, false⟩, 12) := by
  decide +kernel

/-- VP16 (R234). -/
theorem test_outr :
    reads (exec (.outr (some 0) (some 1))
      ({ base with regs := { base.regs with rbx := 0x4008000000000000#64, rax := 0x4014000000000000#64 }, ports := [(3, ⟨0x4045000000000000#64, true, 0x0000000000000000#64, false⟩)] }))
    (fun t => (t.reg .rax, t.pc)) =
    some (0x0000000000000000#64, 12) := by
  decide +kernel

/-- VX8 (R256), of OUTR. -/
theorem test_outr_invalid_port :
    reads (exec (.outr (some 0) (some 1))
      ({ base with regs := { base.regs with rbx := 0x4060000000000000#64 }, ivt := [(5, 100)] }))
    (fun t => (t.cell 63, t.pc)) =
    some (some 0x4028000000000000#64, 100) := by
  decide +kernel

/-! ## One step -/

/-- VX1 (R252, R270). -/
theorem test_step_opcode_255_raises :
    reads (step
      ({ base with pc := 0, mem := [(0, 0x00000000000000FF#64), (1, 0x0000000000000000#64)] }))
    (fun t => (t.cell 63, t.reg .rsp, t.isrDepth, t.pc, t.ir)) =
    some (some 0x4000000000000000#64, 0x404F800000000000#64, 1, 100, 0xFF#128) := by
  decide +kernel

/-- VX4 (R253, R271). -/
theorem test_step_fetch_past_the_end :
    reads (step
      ({ base with pc := 255 }))
    (fun t => (t.cell 63, t.pc, t.ir)) =
    some (some 0x4070100000000000#64, 100, 0#128) := by
  decide +kernel

/-- VD19 (R57): cells 1 and 2 of program P1. -/
theorem test_step_odd_address :
    reads (step
      ({ base with pc := 1, mem := [(1, 0x4014000000000000#64), (2, 0x000000000000013A#64)] }))
    (fun t => (t.cell 63, t.pc)) =
    some (some 0x4008000000000000#64, 100) := by
  decide +kernel

/-- VX14 (R260, R261). -/
theorem test_step_interrupt_before_the_instruction :
    reads (step
      ({ base with pc := 12, ivt := [(69, 100)], pending := [69] }))
    (fun t => (t.cell 63, t.pending, t.isrDepth, t.pc)) =
    some (some 0x4028000000000000#64, [], 1, 100) := by
  decide +kernel

/-- VX17 (R271, R285). -/
theorem test_step_interrupt_wakes_the_core :
    reads (step
      ({ base with pc := 12, ivt := [(64, 100)], pending := [64], halted := true }))
    (fun t => (t.cell 63, t.halted, t.pc)) =
    some (some 0x4028000000000000#64, false, 100) := by
  decide +kernel

/-- VX19 (R285). -/
theorem test_step_halted_in_a_handler :
    reads (step
      ({ base with pc := 12, isrDepth := 1, ivt := [(64, 100)], pending := [64], halted := true }))
    (fun t => (t.halted, t.pending, t.pc)) =
    some (true, [64], 12) := by
  decide +kernel

/-! ## Witnesses

For each statement with hypotheses: states and operands that meet them, for each clause at a boundary of its
range. A statement that is an equation, or has no hypothesis, has none. -/

/-- `base` with RAX, RBX and RSP. -/
def abs (a b sp : W64) : State := { base with regs := { base.regs with rax := a, rbx := b, rsp := sp } }

/-- `base` with one word on the stack at cell `c`, RSP being `sp`. -/
def top (sp : W64) (c : Nat) (w : W64) : State :=
  { base with regs := { base.regs with rsp := sp }, mem := [(c, w)] }

/-- `base` with the two cells of an instruction at its `pc`. -/
def code (w : W128) : State := { base with mem := [(10, lowCell w), (11, highCell w)] }

/-- For DecodeEncodeRoundTrip: well-formed terms at the ends of the operands' ranges. -/
theorem witness_wellFormed : (Instr.add (some 0) (some 9)).wellFormed = true ∧
    (Instr.ret .noOperand).wellFormed = true ∧ (Instr.setisra 511 (some 8)).wellFormed = true ∧
    (Instr.setisrr 0 (some 5)).wellFormed = true := by decide

/-- For ReservedAndUnusedBitsIgnored: different words with the same opcode, with the same opcode and First
value, and with all three fields the same. -/
theorem witness_unused_bits :
    (opcodeField 0x3F#128 = opcodeField 0x7FF80000000000000000000000DEAD3F#128 ∧
      (opcodeField 0x3F#128).toNat ∈ [35, 36, 50, 52, 63]) ∧
    (opcodeField 0x507#128 = opcodeField 0x80000000000000000000000000000507#128 ∧
      firstField 0x507#128 = firstField 0x80000000000000000000000000000507#128 ∧
      (opcodeField 0x507#128).toNat ∈
        [7, 8, 9, 10, 13, 14, 15, 16, 17, 18, 19, 20, 21, 22, 23, 24, 29, 34, 49, 51, 59, 62]) ∧
    opcodeField 0x300#128 = opcodeField 0xFFFFFFFFFF000300#128 ∧
      firstField 0x300#128 = firstField 0xFFFFFFFFFF000300#128 ∧
      secondField 0x300#128 = secondField 0xFFFFFFFFFF000300#128 ∧
      opcodeField (encode .nop) = 63#8 ∧ opcodeField (encode (.not (some 9))) = 29#8 := by decide +kernel

/-- For InvalidRegisterComesFirst: an invalid number in either place, and a jump that is not taken. -/
theorem witness_invalid_register :
    (∃ r ∈ regParams (.add (some 6) (some 0)), regOf r = none) ∧
    (∃ r ∈ regParams (.div (some 0) (some 10)), regOf r = none) ∧
    (∃ r ∈ regParams (.jz .absolute none), regOf r = none) ∧
    ∃ r ∈ regParams (.ret (.inReg (some 7))), regOf r = none :=
  ⟨⟨some 6, .head _, rfl⟩, ⟨some 10, .tail _ (.head _), rfl⟩, ⟨none, .head _, rfl⟩, ⟨some 7, .head _, rfl⟩⟩

/-- For StepRunsDecodedInstruction: an instruction in the last two cells, with the core's turn listed. -/
theorem witness_step : let s : State := { base with pc := 254, mem := [(254, 0x3F#64), (255, 0#64)], turns := [.core] }
    CoreMoves s { s with turns := [] } ∧ Fetches s ∧ InMem s s.pc ∧ InMem s (s.pc + 1) ∧
    s.cell s.pc.toNat = some (lowCell 0x3F#128) ∧ s.cell (s.pc + 1).toNat = some (highCell 0x3F#128) ∧
    decode 0x3F#128 = .ok .nop :=
  ⟨.inr ⟨[], rfl, rfl⟩, ⟨rfl, .inr rfl⟩, ⟨by decide, by decide⟩, ⟨by decide, by decide⟩, by decide, by decide, by decide⟩

/-- For IllegalOpcodeRaises: opcodes 68 and 255, at the first address, with no turn listed. -/
theorem witness_illegal_opcode : ∀ op ∈ [68#128, 255#128],
    let s : State := { base with pc := 0, mem := [(0, lowCell op), (1, highCell op)] }
    CoreMoves s { s with turns := [] } ∧ Fetches s ∧ InMem s s.pc ∧ InMem s (s.pc + 1) ∧
    s.cell s.pc.toNat = some (lowCell op) ∧ s.cell (s.pc + 1).toNat = some (highCell op) ∧
    68 ≤ (opcodeField op).toNat := by
  intro op h s
  have inside : InMem base 0 ∧ InMem base (0 + 1) := ⟨⟨by decide, by decide⟩, ⟨by decide, by decide⟩⟩
  have big : ∀ op ∈ [68#128, 255#128], 68 ≤ (opcodeField op).toNat := by
    simp only [List.forall_mem_cons]
    exact ⟨by decide +kernel, by decide +kernel, by simp⟩
  have low : ∀ x y : W64, Sparse.lookup [(0, x), (1, y)] 0 = some x := by simp [Sparse.lookup]
  have high : ∀ x y : W64, Sparse.lookup [(0, x), (1, y)] 1 = some y := by simp [Sparse.lookup]
  refine ⟨.inr ⟨[], rfl, rfl⟩, ⟨rfl, .inr rfl⟩, inside.1, inside.2, ?_, ?_, big op h⟩
  · exact low _ _
  · exact high _ _

/-- For FetchOutOfBoundsRaises: `pc` one below memory, and in its last cell, in a handler. -/
theorem witness_fetch_out_of_bounds : ∀ pc ∈ [(-1 : Int), 255],
    let s : State := { base with pc := pc, isrDepth := 1 }
    CoreMoves s { s with turns := [] } ∧ Fetches s ∧ ¬ (InMem s s.pc ∧ InMem s (s.pc + 1)) := by
  intro pc h s
  have outside : ∀ pc ∈ [(-1 : Int), 255], ¬ ((0 ≤ pc ∧ pc < (256 : Nat)) ∧ 0 ≤ pc + 1 ∧ pc + 1 < (256 : Nat)) := by
    decide
  exact ⟨.inr ⟨[], rfl, rfl⟩, ⟨rfl, .inl Nat.one_pos⟩, outside pc h⟩

/-- For PendingInterruptIsTaken: two vectors waiting, while halted; and a step in a handler. -/
theorem witness_pending : (let s : State := { base with pending := [64, 127], halted := true }
      CoreMoves s { s with turns := [] } ∧ s.isrDepth = 0 ∧ s.pending ≠ []) ∧
    let s : State := { code 0x3F#128 with pending := [64], isrDepth := 1 }
    CoreMoves s { s with turns := [] } ∧ 0 < s.isrDepth ∧ ∃ t, step s = .next t :=
  ⟨⟨.inr ⟨[], rfl, rfl⟩, rfl, by decide⟩, .inr ⟨[], rfl, rfl⟩, by decide, _, rfl⟩

/-- For HaltedCoreExecutesNothing: halted with nothing pending, and halted in a handler. -/
theorem witness_halted : (let s : State := { base with halted := true, turns := [.core] }
      CoreMoves s { s with turns := [] } ∧ s.halted = true ∧ s.pending = []) ∧
    let s : State := { base with halted := true, isrDepth := 1, pending := [64] }
    CoreMoves s { s with turns := [] } ∧ s.halted = true ∧ 0 < s.isrDepth :=
  ⟨⟨.inr ⟨[], rfl, rfl⟩, rfl, rfl⟩, .inr ⟨[], rfl, rfl⟩, rfl, by decide⟩

/-- For IrqLineAddsItsVector and DeviceStepChangesItsPortOnly: the last line and the last port, a turn of each
kind. -/
theorem witness_agents : Sparse.wf base.ports = true ∧ ∀ x ∈ [Turn.irq 0, .irq 63, .deliver 127 5#64, .take 0, .readyOut 0,
      .withdraw 127],
    Moves { base with turns := [x, .core] } x { base with turns := [.core] } :=
  ⟨rfl, fun _ _ => .inr ⟨[.core], rfl, rfl⟩⟩

/-- For PlacedInstructionRunsNext: words of 24 and of 128 bits. -/
theorem witness_placed : decodeTableWord 24 0xFFFF22 = some (.ret .noOperand) ∧
    decodeTableWord 128 0x40140000000000000000000000000300 = some (.add (some 3) (some 5)) := by decide +kernel

/-- For EveryStepKeepsTheInvariant: a state that meets the invariant, with every kind of thing in it, and goes
on. -/
theorem witness_invariant : let s : State := { code 0x3F#128 with
      pending := [64, 64, 127], isrDepth := 1, ports := [(127, ⟨1#64, true, 0#64, false⟩)], rflags := 7#64 }
    Machine.Inv s ∧ ∃ t, step s = .next t :=
  ⟨⟨by decide, by decide, by decide, by decide, by decide, by decide, by decide, by decide⟩, _, rfl⟩

/-- For WritesReadBack: ports in canonical form, one of them listed. -/
theorem witness_ports : Sparse.wf [(3, (⟨1#64, true, 0#64, false⟩ : Port)), (127, ⟨0#64, true, 0#64, true⟩)] = true := by
  decide

/-- For the statements about every instruction that goes on: one that stores, one that writes nothing, one
that enters a handler, and one that halts. -/
theorem witness_next : (∃ t, exec (.push (some 0)) base = .next t ∧ t.isrDepth = base.isrDepth) ∧
    (∃ t, exec .nop base = .next t ∧ ¬ writesFlags .nop ∧ ¬ writesVectors .nop ∧ ¬ writesPorts .nop ∧
      ¬ storesToMemory .nop ∧ t.isrDepth ≤ base.isrDepth) ∧
    (∃ t, exec (.mov (some 6) (some 0)) base = .next t ∧ t.isrDepth = base.isrDepth + 1) ∧
    (∃ t, exec .hlt base = .next t ∧ t.halted = true) ∧ ∃ t, trapEntry base 0 12 = .next t := by
  refine ⟨⟨((base.setCell 63 0#64).setReg .rsp 0x404F800000000000#64).advance, ?_, rfl⟩,
    ⟨_, rfl, ?_, ?_, ?_, ?_, Nat.le_refl _⟩, ⟨_, rfl, rfl⟩, ⟨_, rfl, rfl⟩, _, rfl⟩
  · have h : ofInt (64 - 1) = 0x404F800000000000#64 := by decide +kernel
    show Host.Outcome.next ((base.setCell 63 0#64).setReg .rsp (ofInt (64 - 1))).advance = _
    rw [h]
  all_goals simp [writesFlags, writesVectors, writesPorts, storesToMemory]

/-- For AtMostOneCellChanges: what a push, a relative and an absolute store would write to. -/
theorem witness_stores : StoresAt (.push (some 0)) base 63 ∧ StoresAt (.strr (some 8) (some 0)) base 74 ∧
    StoresAt (.stra (some 8) (some 0)) base 64 ∧ storesToMemory .pushf := by
  have h : toInt (base.reg .rsp) = some 64 := by decide +kernel
  exact ⟨.inr ⟨.inl ⟨_, rfl⟩, 64, h, rfl⟩, .inl ⟨.relative, _, _, .rsp, 64, .inl ⟨rfl, rfl⟩, rfl, h, rfl⟩,
    .inl ⟨.absolute, _, _, .rsp, 64, .inr ⟨rfl, rfl⟩, rfl, h, rfl⟩, .inr (.inr (.inl rfl))⟩

/-- For AtMostOneCellChanges and OnlyNamedRegistersChange: a cell and a register that do change. -/
theorem witness_changes : reads (exec (.push (some 0)) base)
    (fun t => (t.cell 63, base.cell 63, t.reg .rsp == base.reg .rsp)) = some (some 0#64, none, false) := by
  decide +kernel

/-- For TrapEntry: an unset vector; RSP no integer, 0, one past the last address a push reaches, and at both ends
of the addresses it reaches. -/
theorem witness_trap : base.vector 511 = none ∧ base.vector 5 = some 100 ∧
    toInt 0x4004000000000000#64 = none ∧
    (toInt 0#64 = some 0 ∧ ¬ (0 ≤ (0 : Int) - 1 ∧ (0 : Int) - 1 < base.memSize)) ∧
    (toInt 0x4070100000000000#64 = some 257 ∧ ¬ (0 ≤ (257 : Int) - 1 ∧ (257 : Int) - 1 < base.memSize)) ∧
    (toInt 0x4070000000000000#64 = some 256 ∧ 0 ≤ (256 : Int) - 1 ∧ (256 : Int) - 1 < base.memSize) ∧
    toInt 0x3FF0000000000000#64 = some 1 ∧ 0 ≤ (1 : Int) - 1 ∧ (1 : Int) - 1 < base.memSize := by decide +kernel

/-- The same, in the word InMem of the statements, for pushes and pops: RSP 257 and 0 fail a push, 256 and 1 do
not; RSP 256 and -1 fail a pop, 255 and 0 do not. -/
theorem witness_stack : (¬ InMem base (257 - 1) ∧ ¬ InMem base (0 - 1) ∧ InMem base (256 - 1) ∧ InMem base (1 - 1)) ∧
    (toInt 0x406FE00000000000#64 = some 255 ∧ toInt 0xBFF0000000000000#64 = some (-1)) ∧
    ¬ InMem base 256 ∧ ¬ InMem base (-1) ∧ InMem base 255 ∧ InMem base 0 := by
  unfold InMem
  decide +kernel

/-- For OfIntRoundsToNearest: the largest exact integers, and a denominator. -/
theorem witness_ofInt : |(2 : Int) ^ 53| ≤ 2 ^ 53 ∧ |-(2 : Int) ^ 53| ≤ 2 ^ 53 ∧ 0 < 3 := by decide

/-- For the statements about `N`: a word of each kind, of either sign. -/
theorem witness_words : (isFinite 0x7FEFFFFFFFFFFFFF#64 = true ∧ isFinite 1#64 = true ∧ isFinite negZero = true) ∧
    (isInf 0x7FF0000000000000#64 = true ∧ isInf 0xFFF0000000000000#64 = true) ∧
    (isNaN 0x7FF0000000000001#64 = true ∧ isNaN 0xFFF8000000000000#64 = true ∧ isNaN 1#64 = false) ∧
    (isZero 0#64 = true ∧ isZero negZero = true ∧ isZero 1#64 = false) ∧
    (signBit negZero = true ∧ signBit 0x7FF0000000000000#64 = false ∧ signBit 0xFFF0000000000000#64 = true) ∧
    (signBit 0x8000000000000001#64 = true ∧ signBit 1#64 = false) ∧
    signBit negZero = !signBit posZero ∧ expField negZero = expField posZero ∧
    fracField negZero = fracField posZero := by decide

/-- For MaxMinFloorCeilAbsAreExact: the order of two words holds, and fails, an infinity among them. -/
theorem witness_order : numBelow 0xFFF0000000000000#64 0#64 ∧ numBelow 0#64 0x7FF0000000000000#64 ∧
    ¬ numBelow 0x7FF0000000000000#64 0#64 ∧ isNaN 0xFFF0000000000000#64 = false ∧
    isFinite 0xFFF0000000000000#64 = false := by
  have h0 : isFinite 0#64 = true := by decide
  have h1 : isFinite 0xFFF0000000000000#64 = false := by decide
  have h2 : isFinite 0x7FF0000000000000#64 = false := by decide
  refine ⟨?_, ?_, ?_, by decide, by decide⟩ <;> simp only [numBelow, h0, h1, h2] <;> decide

/-- For the register operands of every instruction statement: valid and invalid numbers at the ends of the
ranges, the same register twice among them. -/
theorem witness_registers : regOf (some 0) = some .rax ∧ regOf (some 5) = some .rvx ∧ regOf (some 8) = some .rsp ∧
    regOf (some 9) = some .rbp ∧ regOf (some 6) = none ∧ regOf (some 7) = none ∧ regOf (some 10) = none ∧
    regOf (some (-1)) = none ∧ regOf none = none := by decide

/-- For DivisionInstructions: both zeros, and a Source that is none. -/
theorem witness_division : isZero ((abs 0#64 0#64 0#64).reg .rbx) = true ∧
    isZero ((abs 0#64 negZero 0#64).reg .rbx) = true ∧ isZero ((abs 0#64 1#64 0#64).reg .rbx) = false := by decide

/-- For CompareDecidesTheOrder: two finite registers, the smallest and the largest. -/
theorem witness_compare : regOf (some 0) = some .rax ∧ regOf (some 1) = some .rbx ∧
    isFinite ((abs 1#64 0x7FEFFFFFFFFFFFFF#64 0#64).reg .rax) = true ∧
    isFinite ((abs 1#64 0x7FEFFFFFFFFFFFFF#64 0#64).reg .rbx) = true := by decide

/-- For BitwiseInstructions: integers at the end of the range, a count of 0 and of -1, and operands that are no
integer. -/
theorem witness_bitwise : (toInt 0x7FEFFFFFFFFFFFFF#64).isSome = true ∧ toInt 0#64 = some 0 ∧
    toInt 0xBFF0000000000000#64 = some (-1) ∧ ¬ (0 : Int) ≤ -1 ∧ toInt 0x4004000000000000#64 = none ∧
    toInt 0x7FF8000000000000#64 = none := by decide +kernel

/-- For the jumps, JumpAndLoop and ConditionalJumps: each flag set and clear, RCX zero and not, an address that
is an integer and one that is none. -/
theorem witness_jumps : (PF { base with rflags := 1#64 } = true ∧ ZF { base with rflags := 1#64 } = false) ∧
    (ZF { base with rflags := 2#64 } = true ∧ SF { base with rflags := 2#64 } = false) ∧
    (SF { base with rflags := 4#64 } = true ∧ PF { base with rflags := 4#64 } = false) ∧
    (!isZero (base.reg .rcx)) = false ∧ (!isZero (base.reg .rsp)) = true ∧
    toInt (base.reg .rsp) = some 64 ∧ toInt ((abs 0x4004000000000000#64 0#64 0#64).reg .rax) = none := by
  decide +kernel

/-- For CallPushesTheNextAddress: a target and a stack, with RSP 256 and with RSP 257. -/
theorem witness_call : ∀ sp ∈ [(0x4070000000000000#64, (256 : Int)), (0x4070100000000000#64, 257)],
    toInt ((abs 0x4004000000000000#64 0#64 sp.1).reg .rax) = none ∧
    toInt ((abs 0x4004000000000000#64 0#64 sp.1).reg .rbx) = some 0 ∧
    toInt ((abs 0x4004000000000000#64 0#64 sp.1).reg .rsp) = some sp.2 := by decide +kernel

/-- For RetPopsAndSkips, IretReturns, PopReadsTheTop, PopfTakesTheFlags: a stack whose top cell is the last one, with
an integer there, a negative one, and no integer; counts 0, 2.5 and -1. -/
theorem witness_pops : (∀ w ∈ [(0x401C000000000000#64, some (7 : Int)), (0xBFF0000000000000#64, some (-1)),
        (0x4004000000000000#64, none)],
      toInt ((top 0x406FE00000000000#64 255 w.1).reg .rsp) = some 255 ∧
      (top 0x406FE00000000000#64 255 w.1).cell (255 : Int).toNat = some w.1 ∧ toInt w.1 = w.2) ∧
    toInt (base.reg .rax) = some 0 ∧ toInt ((abs 0x4004000000000000#64 0#64 0#64).reg .rax) = none ∧
    toInt ((abs 0xBFF0000000000000#64 0#64 0#64).reg .rax) = some (-1) ∧
    toInt ((top 0x4004000000000000#64 0 0#64).reg .rsp) = none := by decide +kernel

/-- For LoadReadsOneCell, StoresWriteOneCell and the addresses of SetIsrWritesOneEntry: an address register whose
cell is the last one, absolute and relative, one past it, and one that is no integer. -/
theorem witness_addresses : toInt 0x406FE00000000000#64 = some 255 ∧
    InMem base (addressOf .absolute base 255) ∧ InMem base (addressOf .relative base (-10)) ∧
    ¬ InMem base (addressOf .absolute base 256) ∧ ¬ InMem base (addressOf .relative base (-11)) ∧
    toInt 0xC024000000000000#64 = some (-10) ∧ toInt 0x4070000000000000#64 = some 256 ∧
    toInt 0xC026000000000000#64 = some (-11) ∧
    (top 0#64 255 7#64).cell (addressOf .absolute (top 0#64 255 7#64) 255).toNat = some 7#64 ∧
    toInt 0x3FE0000000000000#64 = none := by
  unfold InMem
  decide +kernel

/-- For SetIsrWritesOneEntry: the last vector and the first that is none. -/
theorem witness_vectors : (511#16).toNat ≤ 511 ∧ 511 < (512#16).toNat ∧ toInt (base.reg .rsp) = some 64 ∧
    toInt ((abs 0x4004000000000000#64 0#64 0#64).reg .rax) = none := by decide +kernel

/-- For IntEntersTheHandler: the last vector, set, with a stack; 512, -1 and 2.5 are none. -/
theorem witness_int : (let s : State := { abs 0x407FF00000000000#64 0#64 0x4070000000000000#64 with ivt := [(511, 40)] }
      toInt (s.reg .rax) = some ((511 : Nat) : Int) ∧ s.vector 511 = some 40 ∧ toInt (s.reg .rsp) = some 256) ∧
    InMem base (256 - 1) ∧ toInt 0x4080000000000000#64 = some 512 ∧
    ¬ (∃ n, toInt 0x4004000000000000#64 = some n ∧ 0 ≤ n ∧ n ≤ 511) := by
  have h : toInt 0x4004000000000000#64 = none := by decide
  refine ⟨by decide +kernel, ⟨by decide, by decide⟩, by decide +kernel, ?_⟩
  rw [h]
  rintro ⟨n, hn, -⟩
  cases hn

/-- For InAndOutMoveOneWord and InrAndOutrReadTheFlags: the last port, ready and not ready; 128 is none. -/
theorem witness_io : (∀ b ∈ [true, false],
      let s : State := { abs 0#64 0x405FC00000000000#64 0#64 with ports := [(127, ⟨9#64, b, 9#64, b⟩)] }
      Sparse.wf s.ports = true ∧ toInt (s.reg .rbx) = some ((127 : Nat) : Int) ∧ (s.port 127).inReady = b ∧
      (s.port 127).outReady = b) ∧ toInt 0x4060000000000000#64 = some 128 ∧
    ¬ (∃ n, toInt 0x3FE0000000000000#64 = some n ∧ 0 ≤ n ∧ n ≤ 127) := by
  have h : toInt 0x3FE0000000000000#64 = none := by decide
  refine ⟨by decide +kernel, by decide +kernel, ?_⟩
  rw [h]
  rintro ⟨n, hn, -⟩
  cases hn

/-- For RetUndoesCall: a call that completes, of the largest address from which the next is exact. -/
theorem witness_ret_undoes_call : let s : State := { base with pc := 2 ^ 53 - 2 }
    s.memSize ≤ 2 ^ 53 ∧ |s.pc + 2| ≤ 2 ^ 53 ∧
    reads (exec (.call .absolute (some 0)) s) (fun t => (t.isrDepth, t.pc)) = some (s.isrDepth, 0) := by
  decide +kernel

/-- For IretUndoesTrapEntry: a trap that is taken, with the largest exact return addresses. -/
theorem witness_iret_undoes_trap : base.memSize ≤ 2 ^ 53 ∧ |(2 : Int) ^ 53| ≤ 2 ^ 53 ∧
    reads (trapEntry base 5 (2 ^ 53)) (·.isrDepth) = some 1 ∧
    reads (trapEntry base 5 (-2 ^ 53)) (·.isrDepth) = some 1 := by decide +kernel

/-- For PopfUndoesPushf: a push of all three flags that completes. -/
theorem witness_popf_undoes_pushf : let s : State := { base with rflags := 7#64 }
    s.memSize ≤ 2 ^ 53 ∧ s.rflags >>> 3 = 0#64 ∧
    reads (exec .pushf s) (·.isrDepth) = some s.isrDepth := by decide +kernel

/-- For LoadReturnsTheLastStore: a store that completes, the address register being the Source too. -/
theorem witness_load_after_store : regOf (some 8) = some .rsp ∧
    reads (exec (.stra (some 8) (some 8)) base) (·.isrDepth) = some base.isrDepth := by decide +kernel

/-- For UnwrittenCellsFault: an address, and a stack, in a memory that holds nothing. -/
theorem witness_unwritten : regOf (some 8) = some .rsp ∧ toInt (base.reg .rsp) = some 64 ∧
    InMem base (addressOf .absolute base 64) ∧ base.cell (addressOf .absolute base 64).toNat = none := by
  unfold InMem
  decide +kernel

/-- For EndedRunStaysEnded: halted in a handler, with an interrupt waiting and moves listed. -/
theorem witness_ended : Safety.Ended
    { base with halted := true, isrDepth := 1, pending := [64], turns := [.core, .irq 3, .deliver 0 7#64] } :=
  ⟨rfl, .inl Nat.one_pos⟩

/-- R236: a device's move between two of the core's. -/
theorem test_step_device_delivers :
    reads (step { base with turns := [.deliver 3 42#64, .core] })
      (fun t => (t.port 3, t.turns, t.pc)) = some (⟨42#64, true, 0#64, false⟩, [.core], 10) := by
  decide +kernel


end Sys2Proof.Tests
end

section
/-! PROOFS. The stores of the state and the step of the core (spec/00_scope.md R7, R12, spec/30_encoding.md R95):
what a write is read back as, and the step from whose move it is to the word it runs. -/

namespace Sys2Proof.Machine

open Sys2Proof.Spec

/-! ## Reading a state after a write (R7, R22, R30, R35, R50) -/

theorem setPort_port {s : State} (h : Sparse.wf s.ports = true) (p q : Nat) (v : Port) :
    (s.setPort p v).port q = if q = p then v else s.port q := by
  split
  · next heq => rw [heq, setPort_port_self h]
  · next hne => exact setPort_port_ne s v hne

/-- Settles O16: the read-after-write law of each of the four stores. -/
theorem writesReadBack : Obligations.WritesReadBack := by
  intro s
  refine ⟨fun d r w => ⟨rfl, setReg_reg s d r w⟩, setCell_cell s, setVector_vector s, setPort_port⟩

/-! ## The core's step, from whose move it is to the word that runs (R12) -/

/-- The turn that `Moves` names is the one a step uses up. -/
theorem takeTurn_of_moves {s u : State} {x : Turn} (h : Moves s x u) : s.takeTurn = (x, u) := by
  rcases h with ⟨hfree, rfl, rfl⟩ | ⟨rest, hlisted, rfl⟩
  · exact takeTurn_free hfree
  · exact takeTurn_listed hlisted

/-- Using up a turn leaves everything but the record of turns. -/
theorem eq_of_moves {s u : State} {x : Turn} (h : Moves s x u) :
    u = { s with turns := u.turns, moves := u.moves } := by
  rcases h with ⟨-, -, rfl⟩ | ⟨rest, -, rfl⟩ <;> rfl

theorem step_of_coreMoves {s u : State} (h : CoreMoves s u) : step s = coreStep u := by
  change moveOf s.takeTurn.1 s.takeTurn.2 = coreStep u
  rw [takeTurn_of_moves h, moveOf_core]

theorem not_interruptible_of_fetches {s : State} (h : Fetches s) : s.interruptible = false := by
  obtain ⟨-, hdepth | hnone⟩ := h
  · simp [State.interruptible, Nat.ne_of_gt hdepth]
  · simp [State.interruptible, hnone]

theorem coreStep_of_fetches {s : State} (h : Fetches s) :
    coreStep s = settleWith s (fetch s) (execWord s) := by
  simp [coreStep, not_interruptible_of_fetches h, h.1]

theorem inBounds_of_inMem {s : State} {a : Int} (h : InMem s a) : s.inBounds a = true :=
  (inBounds_iff s a).2 h

/-- A fetch of two cells that exist and hold the halves of a word answers that word (R53). -/
theorem fetch_of_cells {s : State} {w : W128} (h0 : InMem s s.pc) (h1 : InMem s (s.pc + 1))
    (hlo : s.cell s.pc.toNat = some (lowCell w)) (hhi : s.cell (s.pc + 1).toNat = some (highCell w)) :
    fetch s = .ok w :=
  memReadInstr_ok.2 ⟨inBounds_of_inMem h0, inBounds_of_inMem h1, _, _, hlo, hhi, (ofCells_cells w).symm⟩

/-- The core's step that fetches the word `w` is the execution of `w`. -/
theorem step_eq_execWord {s u : State} {w : W128} (hm : CoreMoves s u) (hf : Fetches s)
    (h0 : InMem s s.pc) (h1 : InMem s (s.pc + 1))
    (hlo : s.cell s.pc.toNat = some (lowCell w)) (hhi : s.cell (s.pc + 1).toNat = some (highCell w)) :
    step s = execWord u w := by
  rw [step_of_coreMoves hm]
  have hu := eq_of_moves hm
  have hfetches : Fetches u := by rw [hu]; exact hf
  have hfetch : fetch u = .ok w := by rw [hu]; exact fetch_of_cells h0 h1 hlo hhi
  rw [coreStep_of_fetches hfetches, hfetch, settleWith_ok]

theorem execWord_of_decode_ok (s : State) {w : W128} {i : Instr} (h : decode w = .ok i) :
    execWord s w = exec i (s.setIr w) := by
  simp only [execWord, h]

theorem execWord_of_decode_error (s : State) {w : W128} {e : DecodeError} (h : decode w = .error e) :
    execWord s w = raises (s.setIr w) 1 := by
  obtain ⟨op⟩ := e
  simp only [execWord, h]
  rfl

/-- Settles O5: the step that fetches a word is its execution, and the word decodes. -/
theorem stepRunsDecodedInstruction : Obligations.StepRunsDecodedInstruction := by
  intro s u w i hm hf h0 h1 hlo hhi hdec
  rw [step_eq_execWord hm hf h0 h1 hlo hhi]
  exact execWord_of_decode_ok u hdec

/-! ## Which opcodes decode (R94, R95) -/

theorem decodeFields_of_le {op : Nat} (h : op ≤ 67) (first : BitVec 16) (second : W64) :
    ∃ i, decodeFields op first second = some i := by
  interval_cases op <;> exact ⟨_, rfl⟩

theorem decodeFields_of_gt {op : Nat} (h : 68 ≤ op) (first : BitVec 16) (second : W64) :
    decodeFields op first second = none := by
  obtain ⟨n, rfl⟩ := Nat.exists_eq_add_of_le' h
  rfl

theorem decode_of_opcode_le {w : W128} (h : (opcodeField w).toNat ≤ 67) : ∃ i, decode w = .ok i := by
  obtain ⟨i, hi⟩ := decodeFields_of_le h (firstField w) (secondField w)
  exact ⟨i, by simp only [decode, hi]⟩

theorem decode_of_opcode_gt {w : W128} (h : 68 ≤ (opcodeField w).toNat) :
    decode w = .error (.invalidOpcode (opcodeField w)) := by
  simp only [decode, decodeFields_of_gt h]

theorem decode_ok_iff (w : W128) : (∃ i, decode w = .ok i) ↔ (opcodeField w).toNat ≤ 67 := by
  constructor
  · rintro ⟨i, hi⟩
    by_contra hgt
    rw [decode_of_opcode_gt (by omega)] at hi
    cases hi
  · exact decode_of_opcode_le

/-- Settles O6: the opcode map ends at 67, and what it does not map raises once fetched. -/
theorem illegalOpcodeRaises : Obligations.IllegalOpcodeRaises := by
  refine ⟨decode_ok_iff, fun s u w hm hf h0 h1 hlo hhi hop => ?_⟩
  rw [step_eq_execWord hm hf h0 h1 hlo hhi]
  exact execWord_of_decode_error u (decode_of_opcode_gt hop)

/-! ## An instruction placed for the next step (log 5) -/

theorem decodeTableWord_some {nbits w : Nat} {i : Instr} (h : decodeTableWord nbits w = some i) :
    decode (tableWord nbits w) = .ok i := by
  rw [decodeTableWord_eq] at h
  cases hd : decode (tableWord nbits w) with
  | error e => simp [hd] at h
  | ok j => simp [hd] at h; rw [h]

/-- `fetchable` makes the two cells of a fetch exist. -/
theorem inMem_fetchable (s : State) :
    InMem s.fetchable s.fetchable.pc ∧ InMem s.fetchable (s.fetchable.pc + 1) := by
  unfold State.fetchable
  split
  · next h =>
    rw [Bool.and_eq_true, inBounds_iff, inBounds_iff] at h
    exact h
  · simp only [InMem]
    omega

/-- Placing an instruction writes its two cells and no other. -/
theorem placeInstr_cell (s : State) (w : W128) (b : Nat) :
    (s.placeInstr w).cell b =
      if b = s.fetchable.pc.toNat + 1 then some (highCell w)
      else if b = s.fetchable.pc.toNat then some (lowCell w) else s.fetchable.cell b :=
  (setCell_cell _ _ b _).trans (congrArg (ite _ _) (setCell_cell _ _ b _))

@[simp] theorem placeInstr_pc (s : State) (w : W128) : (s.placeInstr w).pc = s.fetchable.pc := rfl

theorem fetches_placeInstr (s : State) (w : W128) : Fetches (s.placeInstr w) := ⟨rfl, .inr rfl⟩

theorem coreMoves_placeInstr (s : State) (w : W128) :
    CoreMoves (s.placeInstr w) { s.placeInstr w with turns := [] } := .inr ⟨[], rfl, rfl⟩

theorem placeInstr_lowCell (s : State) (w : W128) :
    (s.placeInstr w).cell (s.placeInstr w).pc.toNat = some (lowCell w) := by
  simp [placeInstr_cell]

theorem placeInstr_highCell (s : State) (w : W128) :
    (s.placeInstr w).cell ((s.placeInstr w).pc + 1).toNat = some (highCell w) := by
  obtain ⟨⟨hpc, -⟩, -⟩ := inMem_fetchable s
  have hnext : (s.fetchable.pc + 1).toNat = s.fetchable.pc.toNat + 1 := by omega
  simp [placeInstr_cell, hnext]

/-- The step from a placed word runs that word. -/
theorem step_placeInstr (s : State) (w : W128) :
    step (s.placeInstr w) = execWord { s.placeInstr w with turns := [] } w :=
  step_eq_execWord (coreMoves_placeInstr s w) (fetches_placeInstr s w) (inMem_fetchable s).1
    (inMem_fetchable s).2 (placeInstr_lowCell s w) (placeInstr_highCell s w)

/-- Settles O12: the next step runs the placed word, which decodes to the instruction. -/
theorem placedInstructionRunsNext : Obligations.PlacedInstructionRunsNext := by
  intro s nbits w i h
  exact (step_placeInstr s _).trans (execWord_of_decode_ok _ (decodeTableWord_some h))

end Sys2Proof.Machine
end

section
/-! PROOFS. The number of a word and the integer it stands for (spec/00_scope.md R8, R9). The number is
`scaledNum` in units of `1 / scale`, so that `toInt` is a question of divisibility by `scale`. -/

namespace Sys2Proof.Machine

open Sys2Proof.Spec

/-! ## The fields of a word and its number (R8) -/

theorem expField_lt (w : W64) : expField w < 2048 := (w.extractLsb' 52 11).isLt

theorem fracField_lt (w : W64) : fracField w < 2 ^ 52 := (w.extractLsb' 0 52).isLt

theorem isFinite_iff (w : W64) : isFinite w = true ↔ expField w < 2047 := by
  have := expField_lt w
  simp only [isFinite, bne_iff_ne]
  omega

theorem isInf_iff (w : W64) : isInf w = true ↔ expField w = 2047 ∧ fracField w = 0 := by
  simp [isInf]

theorem isZero_iff (w : W64) : isZero w = true ↔ expField w = 0 ∧ fracField w = 0 := by
  simp [isZero]

/-- `-1` for a negative sign, `1` for a positive one. -/
def signQ (neg : Bool) : ℚ := if neg then -1 else 1

@[simp] theorem abs_signQ (neg : Bool) : |signQ neg| = 1 := by cases neg <;> simp [signQ]

theorem signedInt_cast (neg : Bool) (m : Nat) : (signedInt neg m : ℚ) = signQ neg * m := by
  cases neg <;> simp [signedInt, signQ]

theorem magnitude_of_subnormal {w : W64} (h : expField w = 0) : magnitude w = fracField w := if_pos h

theorem magnitude_of_normal {w : W64} (h : expField w ≠ 0) :
    magnitude w = (2 ^ 52 + fracField w) * 2 ^ (expField w - 1) := if_neg h

theorem scale_pos : 0 < scale := by
  rw [scale]
  exact pow_pos (by norm_num) _

/-- `scale` as a rational power, for the formula of R8. -/
theorem scale_zpow : (scale : ℚ) = 2 ^ (1074 : Int) := by
  rw [scale, Nat.cast_pow, Nat.cast_ofNat, ← zpow_natCast, Nat.cast_ofNat]

theorem scale_cast_pos : (0 : ℚ) < scale := Nat.cast_pos.2 scale_pos

theorem numQ_eq_signQ_mul (w : W64) : numQ w = signQ (signBit w) * (magnitude w / scale) := by
  unfold numQ magnitude signQ
  congr 1
  split
  · rw [zpow_neg, ← scale_zpow, div_eq_mul_inv]
  · next he =>
    have hexp : (expField w : Int) - 1075 = ((expField w - 1 : Nat) : Int) - 1074 := by omega
    rw [hexp, zpow_sub₀ two_ne_zero, zpow_natCast, ← scale_zpow, Nat.cast_mul, mul_div_assoc, Nat.cast_pow,
      Nat.cast_ofNat]

/-- `scaledNum` is the number in units of `2^-1074`. -/
theorem numQ_eq_scaledNum (w : W64) : numQ w = scaledNum w / scale := by
  rw [numQ_eq_signQ_mul, scaledNum, signedInt_cast, mul_div_assoc]

theorem numQ_eq_intCast_iff (w : W64) (n : Int) : numQ w = n ↔ scaledNum w = n * scale := by
  rw [numQ_eq_scaledNum, div_eq_iff scale_cast_pos.ne']
  norm_cast

/-! ## `toInt` (R9) -/

/-- The scale is a factor of the size of a word from `2^52` on. -/
theorem two_pow_eq_mul_scale {e : Nat} (h : 1075 ≤ e) : 2 ^ (e - 1) = 2 ^ (e - 1075) * scale := by
  rw [scale, ← pow_add]
  congr 1
  omega

/-- The scale is the unit in the last place of a smaller word, times the fraction bits below one. -/
theorem scale_eq_mul_two_pow {e : Nat} (h : 1 ≤ e) (h' : e ≤ 1074) : scale = 2 ^ (1075 - e) * 2 ^ (e - 1) := by
  rw [scale, ← pow_add]
  congr 1
  omega

theorem toInt_of_isZero {w : W64} (h : isZero w = true) : toInt w = some 0 := if_pos h

theorem toInt_of_large {w : W64} (h : 1075 ≤ expField w) (h' : expField w ≤ 2046) :
    toInt w = some (signedInt (signBit w) ((2 ^ 52 + fracField w) * 2 ^ (expField w - 1075))) := by
  have hz : isZero w ≠ true := by rw [Ne, isZero_iff]; omega
  rw [toInt, if_neg hz, if_pos ⟨h, h'⟩]

theorem toInt_of_small {w : W64} (h : 1023 ≤ expField w) (h' : expField w ≤ 1074)
    (hd : fracField w % 2 ^ (1075 - expField w) = 0) :
    toInt w = some (signedInt (signBit w) ((2 ^ 52 + fracField w) / 2 ^ (1075 - expField w))) := by
  have hz : isZero w ≠ true := by rw [Ne, isZero_iff]; omega
  rw [toInt, if_neg hz, if_neg (by omega), if_pos ⟨h, h', hd⟩]

/-- The three cases of R9, as `toInt` tests them. -/
def HasIntFields (w : W64) : Prop :=
  isZero w = true ∨ (1075 ≤ expField w ∧ expField w ≤ 2046) ∨
    (1023 ≤ expField w ∧ expField w ≤ 1074 ∧ fracField w % 2 ^ (1075 - expField w) = 0)

theorem toInt_of_not_hasIntFields {w : W64} (h : ¬ HasIntFields w) : toInt w = none := by
  simp only [HasIntFields, not_or] at h
  obtain ⟨hz, hl, hs⟩ := h
  rw [toInt, if_neg hz, if_neg hl, if_neg hs]

@[simp] theorem signedInt_zero (neg : Bool) : signedInt neg 0 = 0 := by cases neg <;> rfl

@[simp] theorem natAbs_signedInt (neg : Bool) (m : Nat) : (signedInt neg m).natAbs = m := by
  cases neg <;> simp [signedInt]

theorem signedInt_mul (neg : Bool) (m k : Nat) : signedInt neg (m * k) = signedInt neg m * k := by
  cases neg <;> simp [signedInt]

/-- In each case of R9 the answer of `toInt` is the word's number. -/
theorem toInt_of_hasIntFields {w : W64} (h : HasIntFields w) :
    isFinite w = true ∧ ∃ n, toInt w = some n ∧ scaledNum w = n * scale := by
  rw [isFinite_iff]
  rcases h with hz | ⟨hlo, hhi⟩ | ⟨hlo, hhi, hd⟩
  · have ⟨he, hf⟩ := (isZero_iff w).1 hz
    refine ⟨by omega, 0, toInt_of_isZero hz, ?_⟩
    rw [scaledNum, magnitude_of_subnormal he, hf, signedInt_zero, zero_mul]
  · refine ⟨by omega, _, toInt_of_large hlo hhi, ?_⟩
    rw [scaledNum, magnitude_of_normal (by omega), two_pow_eq_mul_scale hlo, ← mul_assoc, signedInt_mul]
  · refine ⟨by omega, _, toInt_of_small hlo hhi hd, ?_⟩
    have hdvd : 2 ^ (1075 - expField w) ∣ 2 ^ 52 + fracField w :=
      (Nat.dvd_add_right (pow_dvd_pow 2 (by omega))).2 (Nat.dvd_of_mod_eq_zero hd)
    obtain ⟨c, hc⟩ := hdvd
    rw [scaledNum, magnitude_of_normal (by omega), hc, Nat.mul_div_cancel_left _ (by positivity),
      scale_eq_mul_two_pow (by omega) hhi, mul_comm _ c, mul_assoc, signedInt_mul]

/-- A finite word whose number is an integer falls under one of the cases of R9. -/
theorem hasIntFields_of_dvd {w : W64} (hfin : expField w < 2047) (hdvd : scale ∣ magnitude w) :
    HasIntFields w := by
  have hf := fracField_lt w
  by_cases he : expField w = 0
  · rw [magnitude_of_subnormal he] at hdvd
    have hlt : fracField w < scale := by
      rw [scale]
      exact hf.trans (pow_lt_pow_right₀ (by norm_num) (by norm_num))
    exact .inl ((isZero_iff w).2 ⟨he, Nat.eq_zero_of_dvd_of_lt hdvd hlt⟩)
  rw [magnitude_of_normal he] at hdvd
  by_cases hlarge : 1075 ≤ expField w
  · exact .inr (.inl ⟨hlarge, by omega⟩)
  rw [scale_eq_mul_two_pow (e := expField w) (by omega) (by omega)] at hdvd
  have hsig : 2 ^ (1075 - expField w) ∣ 2 ^ 52 + fracField w :=
    Nat.dvd_of_mul_dvd_mul_right (by positivity) hdvd
  have hlow : 1075 - expField w < 53 := by
    have hle : 2 ^ (1075 - expField w) ≤ 2 ^ 52 + fracField w := Nat.le_of_dvd (by positivity) hsig
    exact (Nat.pow_lt_pow_iff_right (by norm_num)).1 (show 2 ^ (1075 - expField w) < 2 ^ 53 by omega)
  have hfrac : 2 ^ (1075 - expField w) ∣ fracField w :=
    (Nat.dvd_add_right (pow_dvd_pow 2 (by omega))).1 hsig
  exact .inr (.inr ⟨by omega, by omega, Nat.mod_eq_zero_of_dvd hfrac⟩)

theorem dvd_magnitude_of_scaledNum {w : W64} {n : Int} (h : scaledNum w = n * scale) :
    scale ∣ magnitude w := by
  rw [← natAbs_signedInt (signBit w) (magnitude w), ← scaledNum, h, Int.natAbs_mul, Int.natAbs_natCast]
  exact Nat.dvd_mul_left _ _

theorem toInt_eq_some_iff (w : W64) (n : Int) :
    toInt w = some n ↔ isFinite w = true ∧ numQ w = n := by
  rw [numQ_eq_intCast_iff]
  by_cases h : HasIntFields w
  · obtain ⟨hfin, m, hm, hs⟩ := toInt_of_hasIntFields h
    have hscale : (scale : Int) ≠ 0 := Int.natCast_ne_zero.2 scale_pos.ne'
    rw [hm, Option.some_inj, hs, mul_left_inj' hscale]
    exact ⟨fun h => ⟨hfin, h⟩, And.right⟩
  · rw [toInt_of_not_hasIntFields h, isFinite_iff]
    refine ⟨nofun, fun ⟨hfin, hs⟩ => absurd (hasIntFields_of_dvd hfin (dvd_magnitude_of_scaledNum hs)) h⟩

theorem toInt_isSome_iff (w : W64) : (toInt w).isSome = true ↔ HasIntFields w := by
  by_cases h : HasIntFields w
  · obtain ⟨-, n, hn, -⟩ := toInt_of_hasIntFields h
    simp [h, hn]
  · simp [h, toInt_of_not_hasIntFields h]

theorem mod_two_pow_eq_zero_iff_testBit (m j : Nat) :
    m % 2 ^ j = 0 ↔ ∀ k, k < j → m.testBit k = false := by
  constructor
  · intro h k hk
    have := Nat.testBit_mod_two_pow m j k
    simpa [h, hk] using this.symm
  · intro h
    refine Nat.eq_of_testBit_eq fun k => ?_
    rw [Nat.testBit_mod_two_pow, Nat.zero_testBit]
    by_cases hk : k < j
    · simp [h k hk]
    · simp [hk]

/-- Settles O23: `toInt` against the number, and its domain by the fields. -/
theorem toIntReadsIntegers : Obligations.ToIntReadsIntegers := by
  refine ⟨toInt_eq_some_iff, fun w => ?_⟩
  rw [toInt_isSome_iff, HasIntFields, isZero_iff, mod_two_pow_eq_zero_iff_testBit]

end Sys2Proof.Machine
end

section
/-! PROOFS. Rounding (spec/00_scope.md R10). A size is measured in the unit `2^E` of its last place; `RoundedAt` says
that `k` units are the size `y` rounded, over any ordered field, and `RoundedAt.roundsTo` that the word made of
`E` and `k` is then the nearest one, or the infinity. -/

namespace Sys2Proof.Machine

open Sys2Proof.Spec

/-! ## The fields of a word made of a sign and bits 62:0 -/

section ofSignMag

variable (neg : Bool) {m : Nat} (hm : m < 2 ^ 63)
include hm

theorem toNat_ofSignMag : (ofSignMag neg m).toNat = (if neg then 2 ^ 63 else 0) + m := by
  rw [ofSignMag, BitVec.toNat_ofNat, Nat.mod_eq_of_lt]
  split
  all_goals omega

theorem expField_ofSignMag : expField (ofSignMag neg m) = m / 2 ^ 52 := by
  rw [expField, BitVec.extractLsb'_toNat, toNat_ofSignMag neg hm, Nat.shiftRight_eq_div_pow]
  split
  all_goals omega

theorem fracField_ofSignMag : fracField (ofSignMag neg m) = m % 2 ^ 52 := by
  rw [fracField, BitVec.extractLsb'_toNat, toNat_ofSignMag neg hm, Nat.shiftRight_zero]
  split
  all_goals omega

theorem signBit_ofSignMag : signBit (ofSignMag neg m) = neg := by
  rw [signBit, BitVec.getLsbD, toNat_ofSignMag neg hm]
  cases neg with
  | false => rw [if_neg Bool.false_ne_true, Nat.zero_add, Nat.testBit_lt_two_pow hm]
  | true => rw [if_pos rfl, Nat.testBit_two_pow_add_eq, Nat.testBit_lt_two_pow hm, Bool.not_false]

end ofSignMag

/-- A significand `k` in units of `2^E`, added to the exponent field `E`, is the size `k * 2^E`: from `2^52` on
its leading bit steps the exponent field, and at `2^53` so does the carry. -/
theorem magnitude_ofSignMag (neg : Bool) {E k : Nat} (hk : k ≤ 2 ^ 53) (hlead : E = 0 ∨ 2 ^ 52 ≤ k)
    (hE : E ≤ 2045) : magnitude (ofSignMag neg (E * 2 ^ 52 + k)) = k * 2 ^ E := by
  have hm : E * 2 ^ 52 + k < 2 ^ 63 := by omega
  rw [magnitude, expField_ofSignMag neg hm, fracField_ofSignMag neg hm]
  rcases Nat.lt_or_ge k (2 ^ 52) with hsub | hnorm
  · obtain rfl : E = 0 := by omega
    have hexp : (0 * 2 ^ 52 + k) / 2 ^ 52 = 0 := by omega
    have hfrac : (0 * 2 ^ 52 + k) % 2 ^ 52 = k := by omega
    rw [if_pos hexp, hfrac, pow_zero, mul_one]
  rcases hk.lt_or_eq with hlt | rfl
  · have hexp : (E * 2 ^ 52 + k) / 2 ^ 52 = E + 1 := by omega
    have hfrac : 2 ^ 52 + (E * 2 ^ 52 + k) % 2 ^ 52 = k := by omega
    rw [hexp, if_neg E.succ_ne_zero, hfrac, Nat.add_sub_cancel]
  · have hexp : (E * 2 ^ 52 + 2 ^ 53) / 2 ^ 52 = E + 2 := by omega
    have hfrac : (E * 2 ^ 52 + 2 ^ 53) % 2 ^ 52 = 0 := by omega
    rw [hexp, if_neg (by omega), hfrac, show E + 2 - 1 = E + 1 from rfl]
    ring

/-! ## Which sizes a word can have -/

/-- A size is a multiple of the unit `2^E`, or lies below the numbers whose last place is `2^E`. -/
theorem magnitude_multiple_or_lt (v : W64) (E : Nat) :
    (∃ j, magnitude v = j * 2 ^ E) ∨ (E ≠ 0 ∧ magnitude v < 2 ^ 52 * 2 ^ E) := by
  have hf := fracField_lt v
  by_cases hE : E = 0
  · exact .inl ⟨magnitude v, by rw [hE, pow_zero, mul_one]⟩
  by_cases he : expField v = 0
  · refine .inr ⟨hE, ?_⟩
    rw [magnitude_of_subnormal he]
    exact hf.trans_le (Nat.le_mul_of_pos_right _ (by positivity))
  rw [magnitude_of_normal he]
  by_cases hle : E ≤ expField v - 1
  · refine .inl ⟨(2 ^ 52 + fracField v) * 2 ^ (expField v - 1 - E), ?_⟩
    rw [mul_assoc, ← pow_add, Nat.sub_add_cancel hle]
  · refine .inr ⟨hE, ?_⟩
    calc (2 ^ 52 + fracField v) * 2 ^ (expField v - 1)
        < 2 ^ 53 * 2 ^ (expField v - 1) := Nat.mul_lt_mul_of_pos_right (by omega) (by positivity)
      _ = 2 ^ 52 * 2 ^ (expField v - 1 + 1) := by ring
      _ ≤ 2 ^ 52 * 2 ^ E := Nat.mul_le_mul_left _ (Nat.pow_le_pow_right (by norm_num) (by omega))

/-- No finite word is larger than the significand of 53 ones at the largest exponent. -/
theorem magnitude_le_of_isFinite {v : W64} (h : isFinite v = true) :
    magnitude v ≤ (2 ^ 53 - 1) * 2 ^ 2045 := by
  have hf := fracField_lt v
  have he := (isFinite_iff v).1 h
  unfold magnitude
  split
  · exact le_trans (by omega) (Nat.le_mul_of_pos_right _ (by positivity))
  · exact Nat.mul_le_mul (by omega) (pow_le_pow_right₀ one_le_two (by omega))

/-- The number of the word with significand `k` in units of `2^E`. -/
theorem numQ_ofSignMag (neg : Bool) {E k : Nat} (hk : k ≤ 2 ^ 53) (hlead : E = 0 ∨ 2 ^ 52 ≤ k)
    (hE : E ≤ 2045) : numQ (ofSignMag neg (E * 2 ^ 52 + k)) = signQ neg * (k * 2 ^ E / scale) := by
  have hm : E * 2 ^ 52 + k < 2 ^ 63 := by omega
  rw [numQ_eq_signQ_mul, signBit_ofSignMag neg hm, magnitude_ofSignMag neg hk hlead hE, Nat.cast_mul,
    Nat.cast_pow, Nat.cast_ofNat]

theorem isFinite_ofSignMag (neg : Bool) {m : Nat} (h : m < 2047 * 2 ^ 52) :
    isFinite (ofSignMag neg m) = true := by
  rw [isFinite_iff, expField_ofSignMag neg (by omega)]
  omega

/-- A significand of 53 bits in any unit from `2^-1074` to `2^970` makes a number: one with leading zeros has
twice the significand in half the unit. -/
theorem exists_numQ_eq (neg : Bool) {E k : Nat} (hk : k ≤ 2 ^ 53) (hE : E ≤ 2044) :
    ∃ v, isFinite v = true ∧ numQ v = signQ neg * (k * 2 ^ E / scale) := by
  induction E generalizing k with
  | zero => exact ⟨_, isFinite_ofSignMag neg (by omega), numQ_ofSignMag neg hk (.inl rfl) (by omega)⟩
  | succ E ih =>
    by_cases hlead : 2 ^ 52 ≤ k
    · exact ⟨_, isFinite_ofSignMag neg (by omega), numQ_ofSignMag neg hk (.inr hlead) (by omega)⟩
    · obtain ⟨v, hfin, hv⟩ := ih (k := 2 * k) (by omega) (by omega)
      refine ⟨v, hfin, hv.trans ?_⟩
      push_cast
      ring

/-! ## Rounding to an integer number of units -/

section nearest

variable {K : Type*} [Field K] [LinearOrder K] [IsStrictOrderedRing K]

/-- An integer within a half is a nearest one, and an equally near other one makes it a tie. -/
theorem abs_sub_le_of_near {y : K} {k : Nat} (h : |k - y| ≤ 1 / 2) (j : Nat) :
    |k - y| ≤ |j - y| ∧ (j ≠ k → |j - y| = |k - y| → |k - y| = 1 / 2) := by
  by_cases hj : j = k
  · subst hj
    exact ⟨le_rfl, fun hne => absurd rfl hne⟩
  have hapart : (1 : K) ≤ |(j : K) - k| := by
    have hint : (1 : Int) ≤ |(j : Int) - k| := Int.one_le_abs (by omega)
    exact_mod_cast hint
  have htri : |(j : K) - k| ≤ |j - y| + |k - y| := by
    rw [abs_sub_comm (k : K) y]
    exact abs_sub_le _ _ _
  exact ⟨by linarith, fun _ heq => by linarith⟩

/-- `k` is the real `y` rounded to an integer, ties to even, where `y` counts units `2^E` (above the scale) of a
binary64 number: below 53 bits, and of 53 bits unless the unit is the least one. -/
structure RoundedAt (y : K) (E k : Nat) : Prop where
  near : |k - y| ≤ 1 / 2
  tie : |k - y| = 1 / 2 → k % 2 = 0
  lt : y < 2 ^ 53
  lead : E = 0 ∨ 2 ^ 52 ≤ y
  nonneg : 0 ≤ y

variable {y : K} {E k : Nat}

theorem RoundedAt.le (h : RoundedAt y E k) : k ≤ 2 ^ 53 := by
  have hnear := (abs_le.1 h.near).2
  have hlt := h.lt
  have hk : (k : K) < (2 ^ 53 + 1 : Nat) := by push_cast; linarith
  exact Nat.lt_succ_iff.1 (Nat.cast_lt.1 hk)

theorem RoundedAt.lead_nat (h : RoundedAt y E k) : E = 0 ∨ 2 ^ 52 ≤ k := by
  refine h.lead.imp id fun hy => ?_
  have hnear := (abs_le.1 h.near).1
  have hk : ((2 ^ 52 : Nat) : K) < (k + 1 : Nat) := by push_cast; linarith
  exact Nat.lt_succ_iff.1 (Nat.cast_lt.1 hk)

/-- No word is nearer to `y * 2^E` than `k * 2^E`, and only at a tie is another one as near. -/
theorem RoundedAt.nearest (h : RoundedAt y E k) (v : W64) :
    |(k * 2 ^ E - y * 2 ^ E : K)| ≤ |magnitude v - y * 2 ^ E| ∧
      (magnitude v ≠ k * 2 ^ E → |(magnitude v - y * 2 ^ E : K)| = |k * 2 ^ E - y * 2 ^ E| → k % 2 = 0) := by
  have hpos : (0 : K) < 2 ^ E := by positivity
  have hunit : ∀ a : K, |a * 2 ^ E - y * 2 ^ E| = |a - y| * 2 ^ E := fun a => by
    rw [← sub_mul, abs_mul, abs_of_pos hpos]
  rw [hunit]
  rcases magnitude_multiple_or_lt v E with ⟨j, hj⟩ | ⟨hE, hlt⟩
  · obtain ⟨hle, htie⟩ := abs_sub_le_of_near h.near j
    rw [hj, Nat.cast_mul, Nat.cast_pow, Nat.cast_ofNat, hunit]
    refine ⟨mul_le_mul_of_nonneg_right hle hpos.le, fun hne heq => h.tie (htie ?_ ?_)⟩
    · rintro rfl
      exact hne rfl
    · exact mul_right_cancel₀ hpos.ne' heq
  · have hy : (2 ^ 52 : K) ≤ y := h.lead.resolve_left hE
    have hv : (magnitude v : K) < 2 ^ 52 * 2 ^ E := by exact_mod_cast hlt
    have hyE : (2 ^ 52 * 2 ^ E : K) ≤ y * 2 ^ E := mul_le_mul_of_nonneg_right hy hpos.le
    have hlow : |(k - y : K)| ≤ y - 2 ^ 52 := by
      have hle := (abs_sub_le_of_near h.near (2 ^ 52)).1
      rw [Nat.cast_pow, Nat.cast_ofNat, abs_sub_comm (2 ^ 52) y, abs_of_nonneg (sub_nonneg.2 hy)] at hle
      exact hle
    have hstrict : |(k - y : K)| * 2 ^ E < |magnitude v - y * 2 ^ E| := by
      calc |(k - y : K)| * 2 ^ E ≤ (y - 2 ^ 52) * 2 ^ E := mul_le_mul_of_nonneg_right hlow hpos.le
        _ < y * 2 ^ E - magnitude v := by linarith
        _ ≤ |magnitude v - y * 2 ^ E| := by
          rw [abs_sub_comm]
          exact le_abs_self _
    exact ⟨hstrict.le, fun _ heq => absurd heq hstrict.ne'⟩

/-- The rounded number reaches the infinity's bits exactly from `2^1024 - 2^970` on. -/
theorem RoundedAt.lt_inf_iff (h : RoundedAt y E k) :
    E * 2 ^ 52 + k < 2047 * 2 ^ 52 ↔ y * 2 ^ E < (2 ^ 53 - 1 / 2) * 2 ^ 2045 := by
  have hle := h.le
  have hlead := h.lead_nat
  have hlt := h.lt
  obtain ⟨hnear, hnear'⟩ := abs_le.1 h.near
  have hB : (0 : K) < 2 ^ 2045 := by positivity
  rcases lt_trichotomy E 2045 with hE | rfl | hE
  · refine iff_of_true (by omega) ?_
    have hpow : (2 : K) ^ E * 2 ≤ 2 ^ 2045 := by
      rw [← pow_succ]
      exact pow_le_pow_right₀ one_le_two hE
    calc y * 2 ^ E < 2 ^ 53 * 2 ^ E := mul_lt_mul_of_pos_right hlt (by positivity)
      _ = 2 ^ 52 * (2 ^ E * 2) := by ring
      _ ≤ 2 ^ 52 * 2 ^ 2045 := mul_le_mul_of_nonneg_left hpow (by positivity)
      _ ≤ (2 ^ 53 - 1 / 2) * 2 ^ 2045 := mul_le_mul_of_nonneg_right (by norm_num) hB.le
  · rw [mul_lt_mul_iff_left₀ hB]
    constructor
    · intro hk
      by_contra hge
      have hk1 : k + 1 = 2 ^ 53 := by
        have hk2 : ((2 ^ 53 : Nat) : K) ≤ (k + 1 : Nat) := by push_cast; linarith
        have := Nat.cast_le.1 hk2
        omega
      have hk1K : (k : K) + 1 = 2 ^ 53 := by exact_mod_cast hk1
      have hhalf : (k : K) - y = -(1 / 2) := by linarith
      have heven := h.tie (by rw [hhalf, abs_neg, abs_of_pos (by positivity)])
      omega
    · intro hy
      have hk : (k : K) < (2 ^ 53 : Nat) := by push_cast; linarith
      have := Nat.cast_lt.1 hk
      omega
  · have hy : (2 ^ 52 : K) ≤ y := h.lead.resolve_left (by omega)
    refine iff_of_false (by omega) (not_lt.2 ?_)
    have hpow : (2 : K) ^ 2045 * 2 ≤ 2 ^ E := by
      rw [← pow_succ]
      exact pow_le_pow_right₀ one_le_two hE
    calc ((2 : K) ^ 53 - 1 / 2) * 2 ^ 2045 ≤ 2 ^ 53 * 2 ^ 2045 :=
          mul_le_mul_of_nonneg_right (by norm_num) hB.le
      _ = 2 ^ 52 * (2 ^ 2045 * 2) := by rw [pow_succ 2 52, mul_assoc, mul_comm 2]
      _ ≤ 2 ^ 52 * 2 ^ E := mul_le_mul_of_nonneg_left hpow (by positivity)
      _ ≤ y * 2 ^ E := mul_le_mul_of_nonneg_right hy (by positivity)

end nearest

/-! ## The rounding of a rational (R10) -/

/-- The unit at `y` as a rational: a positive power on top, a negative one below. -/
theorem two_zpow_eq_div (x : Int) : (2 : ℚ) ^ x = 2 ^ x.toNat / 2 ^ (-x).toNat := by
  rcases Int.eq_nat_or_neg x with ⟨k, rfl | rfl⟩
  · simp
  · simp [zpow_neg]

/-- `floorLog2` is the exponent of the leading bit. -/
theorem floorLog2_bounds {n d : Nat} (hn : 0 < n) (hd : 0 < d) :
    (2 : ℚ) ^ floorLog2 n d ≤ n / d ∧ (n / d : ℚ) < 2 ^ (floorLog2 n d + 1) := by
  have hdQ : (0 : ℚ) < d := Nat.cast_pos.2 hd
  have hn1 : ((2 ^ n.log2 : Nat) : ℚ) ≤ n := Nat.cast_le.2 (Nat.log2_self_le hn.ne')
  have hn2 : (n : ℚ) < (2 ^ (n.log2 + 1) : Nat) := Nat.cast_lt.2 Nat.lt_log2_self
  have hd1 : ((2 ^ d.log2 : Nat) : ℚ) ≤ d := Nat.cast_le.2 (Nat.log2_self_le hd.ne')
  have hd2 : (d : ℚ) < (2 ^ (d.log2 + 1) : Nat) := Nat.cast_lt.2 Nat.lt_log2_self
  push_cast at hn1 hn2 hd1 hd2
  set l : Int := (n.log2 : Int) - d.log2 with hl
  have htest : d * 2 ^ l.toNat ≤ n * 2 ^ (-l).toNat ↔ (2 : ℚ) ^ l ≤ n / d := by
    rw [two_zpow_eq_div, div_le_div_iff₀ (by positivity) hdQ, mul_comm _ (d : ℚ)]
    norm_cast
  have hupper : (n / d : ℚ) < 2 ^ (l + 1) := by
    rw [hl, sub_add_eq_add_sub, zpow_sub₀ two_ne_zero]
    exact div_lt_div₀ (by exact_mod_cast hn2) (by exact_mod_cast hd1) (by positivity) (by positivity)
  have hlower : (2 : ℚ) ^ (l - 1) ≤ n / d := by
    rw [hl, sub_sub, zpow_sub₀ two_ne_zero]
    exact div_le_div₀ (by positivity) (by exact_mod_cast hn1) hdQ (by exact_mod_cast hd2.le)
  rw [floorLog2, ← hl]
  split
  · next h => exact ⟨htest.1 h, hupper⟩
  · next h => exact ⟨hlower, by rw [sub_add_cancel]; exact not_le.1 (mt htest.2 h)⟩

/-- `divHalfEven` is within a half of the quotient, and even at a tie. -/
theorem divHalfEven_near (n : Nat) {d : Nat} (hd : 0 < d) :
    |(divHalfEven n d - n / d : ℚ)| ≤ 1 / 2 ∧
      (|(divHalfEven n d - n / d : ℚ)| = 1 / 2 → divHalfEven n d % 2 = 0) := by
  have hdQ : (0 : ℚ) < d := Nat.cast_pos.2 hd
  set q := n / d with hq
  set r := n % d with hr
  have hquot : (n / d : ℚ) = q + r / d := by
    have hdiv : (n : ℚ) = d * q + r := by exact_mod_cast (Nat.div_add_mod n d).symm
    rw [hdiv]
    field_simp
  have hr0 : (0 : ℚ) ≤ r / d := by positivity
  rw [hquot, divHalfEven, ← hq, ← hr]
  split
  · next hlt =>
    have hfrac : (r / d : ℚ) < 1 / 2 := by
      rw [div_lt_div_iff₀ hdQ two_pos]
      exact_mod_cast (by omega : r * 2 < 1 * d)
    rw [sub_add_cancel_left, abs_neg, abs_of_nonneg hr0]
    exact ⟨hfrac.le, fun h => absurd h hfrac.ne⟩
  next hge =>
  split
  · next hgt =>
    have hfrac : (1 / 2 : ℚ) < r / d := by
      rw [div_lt_div_iff₀ two_pos hdQ]
      exact_mod_cast (by omega : 1 * d < r * 2)
    have hfrac1 : (r / d : ℚ) ≤ 1 := by
      rw [div_le_one hdQ]
      exact_mod_cast (Nat.mod_lt n hd).le
    rw [Nat.cast_succ, add_sub_add_left_eq_sub, abs_of_nonneg (by linarith)]
    exact ⟨by linarith, fun h => absurd h (by linarith)⟩
  · next hle =>
    have hfrac : (r / d : ℚ) = 1 / 2 := by
      rw [div_eq_div_iff hdQ.ne' two_ne_zero]
      exact_mod_cast (by omega : r * 2 = 1 * d)
    rw [hfrac, Nat.cast_add, add_sub_add_left_eq_sub]
    refine ⟨?_, fun _ => by omega⟩
    rcases Nat.mod_two_eq_zero_or_one q with h | h <;> rw [h] <;> norm_num

/-- The exponent of the unit of `n / d` above that of the scale: the exponent field below that of the result. -/
def unitField (n d : Nat) : Nat := (ulpExp n d + 1074).toNat

/-- The significand of `n / d`, rounded to its unit. -/
def significand (n d : Nat) : Nat :=
  divHalfEven (n * 2 ^ (-ulpExp n d).toNat) (d * 2 ^ (ulpExp n d).toNat)

theorem roundMag_of_pos {n d : Nat} (hn : 0 < n) :
    roundMag n d = min (unitField n d * 2 ^ 52 + significand n d) (2047 * 2 ^ 52) := if_neg hn.ne'

theorem roundMag_zero (d : Nat) : roundMag 0 d = 0 := rfl

theorem unitField_cast (n d : Nat) : (unitField n d : Int) = ulpExp n d + 1074 := by
  rw [unitField, ulpExp]
  omega

/-- The unit of `n / d` and its exponent field. -/
theorem two_zpow_ulpExp (n d : Nat) : (2 : ℚ) ^ ulpExp n d = 2 ^ unitField n d / scale := by
  rw [scale_zpow, ← zpow_natCast, unitField_cast, ← zpow_sub₀ two_ne_zero, add_sub_cancel_right]

theorem roundedAt_significand {n d : Nat} (hn : 0 < n) (hd : 0 < d) :
    RoundedAt (n / d / 2 ^ ulpExp n d : ℚ) (unitField n d) (significand n d) := by
  obtain ⟨hlow, hupp⟩ := floorLog2_bounds hn hd
  set x := ulpExp n d with hx
  have hxdef : x = max (floorLog2 n d) (-1022) - 52 := hx
  have hunit : (0 : ℚ) < 2 ^ x := by positivity
  have hquot : ((n * 2 ^ (-x).toNat : Nat) / (d * 2 ^ x.toNat : Nat) : ℚ) = n / d / 2 ^ x := by
    rw [two_zpow_eq_div]
    push_cast
    field_simp
  obtain ⟨hnear, htie⟩ := divHalfEven_near (n * 2 ^ (-x).toNat) (d := d * 2 ^ x.toNat) (by positivity)
  rw [hquot] at hnear htie
  refine ⟨hnear, htie, ?_, ?_, by positivity⟩
  · rw [div_lt_iff₀ hunit, ← zpow_natCast, ← zpow_add₀ two_ne_zero]
    exact hupp.trans_le (zpow_le_zpow_right₀ one_le_two (by push_cast; omega))
  · by_cases hsub : unitField n d = 0
    · exact .inl hsub
    · have hfield := unitField_cast n d
      refine .inr ?_
      rw [le_div_iff₀ hunit, ← zpow_natCast, ← zpow_add₀ two_ne_zero]
      exact (zpow_le_zpow_right₀ one_le_two (by push_cast; omega)).trans hlow

/-! ## From sizes to words: `RoundsTo` -/

theorem abs_numQ (w : W64) : |numQ w| = magnitude w / scale := by
  rw [numQ_eq_signQ_mul, abs_mul, abs_signQ, one_mul, abs_of_nonneg (by positivity)]

/-- Of two numbers on the same side of zero the distance is that of their sizes. -/
theorem abs_signQ_mul_sub (neg : Bool) {a b : ℚ} : |signQ neg * a - signQ neg * b| = |a - b| := by
  rw [← mul_sub, abs_mul, abs_signQ, one_mul]

@[simp] theorem signQ_mul_self (neg : Bool) : signQ neg * signQ neg = 1 := by cases neg <;> simp [signQ]

theorem signQ_mul_neg_iff {neg : Bool} {a : ℚ} (ha : 0 < a) : neg = true ↔ signQ neg * a < 0 := by
  cases neg <;> simp [signQ, ha, ha.le]

/-- Where the infinities begin, in the units of `RoundedAt`. -/
theorem overflow_eq : (2 ^ 1024 - 2 ^ 970 : ℚ) = (2 ^ 53 - 1 / 2) * 2 ^ 2045 / scale := by
  have h1 : (2 : ℚ) ^ 1024 = 2 ^ 54 * 2 ^ 970 := (pow_add 2 54 970)
  have h2 : (2 : ℚ) ^ 2045 = 2 * 2 ^ 970 * scale := by
    rw [scale, Nat.cast_pow, Nat.cast_ofNat, ← pow_succ', ← pow_add]
  rw [h1, h2, ← mul_assoc, mul_div_cancel_right₀ _ scale_cast_pos.ne', ← mul_assoc, ← sub_one_mul]
  norm_num

theorem overflow_pos : (0 : ℚ) < 2 ^ 1024 - 2 ^ 970 := by
  rw [overflow_eq]
  exact div_pos (mul_pos (by norm_num) (by positivity)) scale_cast_pos

section roundsTo

variable {y : ℚ} {E k : Nat}

theorem RoundedAt.even_of_zero (h : RoundedAt (0 : ℚ) E k) : k % 2 = 0 := by
  have hk : (k : ℚ) < 1 := by
    have := (abs_le.1 h.near).2
    linarith
  have hzero : k = 0 := Nat.lt_one_iff.1 (by exact_mod_cast hk)
  rw [hzero]

/-- A number as near to `b ≥ 0` as its size is not negative, unless `b` is zero. -/
theorem nonneg_or_eq_zero_of_abs_sub_le {z b : ℚ} (hb : 0 ≤ b) (h : |z - b| ≤ |(|z| - b)|) :
    0 ≤ z ∨ b = 0 := by
  refine (le_or_gt 0 z).imp id fun hneg => ?_
  rw [abs_of_neg hneg, abs_of_neg (by linarith)] at h
  rcases abs_cases (-z - b) with ⟨hval, -⟩ | ⟨hval, -⟩ <;> linarith

/-- The nearest size is nearest to a positive number among the signed numbers too. -/
theorem RoundedAt.nearest_signed (h : RoundedAt y E k) {v : W64} {z : ℚ} (hz : |z| = magnitude v / scale) :
    |(k * 2 ^ E / scale - y * 2 ^ E / scale : ℚ)| ≤ |z - y * 2 ^ E / scale| ∧
      (z ≠ k * 2 ^ E / scale →
        |z - y * 2 ^ E / scale| = |(k * 2 ^ E / scale - y * 2 ^ E / scale : ℚ)| → k % 2 = 0) := by
  have hunit : ∀ a : ℚ, |a / scale - y * 2 ^ E / scale| = |a - y * 2 ^ E| / scale := fun a => by
    rw [← sub_div, abs_div, abs_of_pos scale_cast_pos]
  have hb : 0 ≤ y * 2 ^ E / scale := div_nonneg (mul_nonneg h.nonneg (by positivity)) scale_cast_pos.le
  obtain ⟨hle, htie⟩ := h.nearest v
  have hsize : |(k * 2 ^ E / scale - y * 2 ^ E / scale : ℚ)| ≤ |(|z| - y * 2 ^ E / scale)| := by
    rw [hz, hunit, hunit]
    exact div_le_div_of_nonneg_right hle scale_cast_pos.le
  refine ⟨hsize.trans ?_, fun hne heq => ?_⟩
  · simpa only [abs_of_nonneg hb] using abs_abs_sub_abs_le z (y * 2 ^ E / scale)
  rcases nonneg_or_eq_zero_of_abs_sub_le hb (heq.trans_le hsize) with hpos | hzero
  · rw [abs_of_nonneg hpos] at hz
    rw [hz, hunit, hunit] at heq
    refine htie (fun hmag => hne ?_) ((div_left_inj' scale_cast_pos.ne').1 heq)
    rw [hz, hmag, Nat.cast_mul, Nat.cast_pow, Nat.cast_ofNat]
  · have hy : y = 0 :=
      (mul_eq_zero.1 ((div_eq_zero_iff.1 hzero).resolve_right scale_cast_pos.ne')).resolve_right (by positivity)
    subst hy
    exact h.even_of_zero

/-- The signed rounding of a size is nearest among the signed numbers. -/
theorem RoundedAt.nearest_numQ (h : RoundedAt y E k) (neg : Bool) (v : W64) :
    |signQ neg * (k * 2 ^ E / scale) - signQ neg * (y * 2 ^ E / scale)| ≤
        |numQ v - signQ neg * (y * 2 ^ E / scale)| ∧
      (numQ v ≠ signQ neg * (k * 2 ^ E / scale) →
        |numQ v - signQ neg * (y * 2 ^ E / scale)| =
          |signQ neg * (k * 2 ^ E / scale) - signQ neg * (y * 2 ^ E / scale)| → k % 2 = 0) := by
  have hnum : numQ v = signQ neg * (signQ neg * numQ v) := by
    rw [← mul_assoc, signQ_mul_self, one_mul]
  have hz : |signQ neg * numQ v| = magnitude v / scale := by
    rw [abs_mul, abs_signQ, one_mul, abs_numQ]
  obtain ⟨hle, htie⟩ := h.nearest_signed hz
  rw [hnum, abs_signQ_mul_sub, abs_signQ_mul_sub]
  exact ⟨hle, fun hne => htie fun heq => hne (congrArg _ heq)⟩

theorem RoundedAt.roundsTo (h : RoundedAt y E k) (neg : Bool) :
    RoundsTo (signQ neg * (y * 2 ^ E / scale))
      (ofSignMag neg (min (E * 2 ^ 52 + k) (2047 * 2 ^ 52))) := by
  have hsize : |signQ neg * (y * 2 ^ E / scale)| = y * 2 ^ E / scale := by
    have := h.nonneg
    rw [abs_mul, abs_signQ, one_mul, abs_of_nonneg (by positivity)]
  have hfits : |signQ neg * (y * 2 ^ E / scale)| < 2 ^ 1024 - 2 ^ 970 ↔ E * 2 ^ 52 + k < 2047 * 2 ^ 52 := by
    rw [hsize, overflow_eq, div_lt_div_iff_of_pos_right scale_cast_pos, h.lt_inf_iff]
  constructor
  · intro hq
    have hlt := hfits.1 hq
    have hlead := h.lead_nat
    have hm : E * 2 ^ 52 + k < 2 ^ 63 := hlt.trans (by norm_num)
    rw [min_eq_left hlt.le]
    have hfrac : fracField (ofSignMag neg (E * 2 ^ 52 + k)) % 2 = k % 2 := by
      rw [fracField_ofSignMag neg hm]
      omega
    rw [numQ_ofSignMag neg h.le hlead (by omega), hfrac]
    exact ⟨isFinite_ofSignMag neg hlt, fun v _ => (h.nearest_numQ neg v).1, fun v _ => (h.nearest_numQ neg v).2⟩
  · intro hq
    have hge := not_lt.1 (mt hfits.2 (not_lt.2 hq))
    have hm : 2047 * 2 ^ 52 < 2 ^ 63 := by norm_num
    rw [min_eq_right hge, isInf_iff, expField_ofSignMag neg hm, fracField_ofSignMag neg hm,
      signBit_ofSignMag neg hm]
    rw [hsize] at hq
    exact ⟨by norm_num, signQ_mul_neg_iff (overflow_pos.trans_le hq)⟩

/-- A finite word lies below the overflow bound. -/
theorem abs_numQ_lt_of_isFinite {v : W64} (hv : isFinite v = true) : |numQ v| < 2 ^ 1024 - 2 ^ 970 := by
  rw [abs_numQ, overflow_eq, div_lt_div_iff_of_pos_right scale_cast_pos]
  calc (magnitude v : ℚ) ≤ ((2 ^ 53 - 1) * 2 ^ 2045 : Nat) := Nat.cast_le.2 (magnitude_le_of_isFinite hv)
    _ = (2 ^ 53 - 1) * 2 ^ 2045 := by rw [Nat.cast_mul, Nat.cast_pow, Nat.cast_ofNat]; norm_num
    _ < (2 ^ 53 - 1 / 2) * 2 ^ 2045 := mul_lt_mul_of_pos_right (by norm_num) (by positivity)

end roundsTo

/-- A number that a word has is rounded to itself. -/
theorem roundsTo_exact {w v : W64} (h : RoundsTo (numQ v) w) (hv : isFinite v = true) :
    isFinite w = true ∧ numQ w = numQ v := by
  obtain ⟨hfin, hnear, -⟩ := h.1 (abs_numQ_lt_of_isFinite hv)
  have hzero := hnear v hv
  rw [sub_self, abs_zero, abs_nonpos_iff, sub_eq_zero] at hzero
  exact ⟨hfin, hzero⟩

theorem numQ_of_isZero {w : W64} (h : isZero w = true) : numQ w = 0 := by
  have ⟨he, hf⟩ := (isZero_iff w).1 h
  rw [numQ_eq_signQ_mul, magnitude_of_subnormal he, hf, Nat.cast_zero, zero_div, mul_zero]

/-- Rounding to a zero leaves its sign open. -/
theorem roundsTo_of_isZero {q : ℚ} {w v : W64} (h : RoundsTo q w) (hw : isZero w = true)
    (hv : isZero v = true) : RoundsTo q v := by
  have ⟨he, hf⟩ := (isZero_iff w).1 hw
  have ⟨he', hf'⟩ := (isZero_iff v).1 hv
  obtain ⟨hfinite, hover⟩ := h
  refine ⟨fun hq => ?_, fun hq => ?_⟩
  · have hrest := hfinite hq
    rw [numQ_of_isZero hw, hf] at hrest
    rw [numQ_of_isZero hv, hf', isFinite_iff, he']
    exact ⟨by norm_num, hrest.2⟩
  · have hinf := (isInf_iff w).1 (hover hq).1
    omega

/-- `rnd` rounds the signed quotient. -/
theorem roundsTo_rnd (neg : Bool) (n : Nat) {d : Nat} (hd : 0 < d) :
    RoundsTo (signQ neg * (n / d)) (rnd neg n d) := by
  rcases Nat.eq_zero_or_pos n with rfl | hn
  · rw [rnd, roundMag_zero, Nat.cast_zero, zero_div]
    have hzero : RoundedAt (0 : ℚ) 0 0 := ⟨by norm_num, fun _ => rfl, by norm_num, .inl rfl, le_rfl⟩
    have h := hzero.roundsTo neg
    rwa [zero_mul, zero_div, zero_mul, Nat.add_zero, Nat.zero_min] at h
  · have h := (roundedAt_significand hn hd).roundsTo neg
    have hunit : (2 : ℚ) ^ ulpExp n d ≠ 0 := by positivity
    rwa [mul_div_assoc, ← two_zpow_ulpExp, div_mul_cancel₀ _ hunit, ← roundMag_of_pos hn, ← rnd] at h

theorem roundMag_lt (n d : Nat) : roundMag n d < 2 ^ 63 := by
  rcases Nat.eq_zero_or_pos n with rfl | hn
  · exact Nat.two_pow_pos 63
  · rw [roundMag_of_pos hn]
    omega

theorem isZero_ofSignMag (neg : Bool) {m : Nat} (hm : m < 2 ^ 63) :
    isZero (ofSignMag neg m) = true ↔ m = 0 := by
  rw [isZero_iff, expField_ofSignMag neg hm, fracField_ofSignMag neg hm]
  omega

theorem signQ_mul_natAbs (n : Int) : signQ (decide (n < 0)) * n.natAbs = n := by
  have hsign : signedInt (decide (n < 0)) n.natAbs = n := by
    simp only [signedInt, decide_eq_true_eq]
    split
    all_goals omega
  rw [← signedInt_cast, hsign]

/-- `rndInt` is `rnd`, but for the sign of a zero. -/
theorem rndInt_eq_rnd {n : Int} {d : Nat} (h : roundMag n.natAbs d ≠ 0) :
    rndInt n d = rnd (decide (n < 0)) n.natAbs d := by
  simp only [rndInt, rnd, bne_iff_ne.2 h, Bool.and_true]

theorem rndInt_eq_zero {n : Int} {d : Nat} (h : roundMag n.natAbs d = 0) : rndInt n d = 0#64 := by
  simp [rndInt, h, ofSignMag]

/-- A result of `rndInt` that is a zero is `+0` (R10). -/
theorem rndInt_of_isZero {n : Int} {d : Nat} (h : isZero (rndInt n d) = true) : rndInt n d = 0#64 :=
  rndInt_eq_zero ((isZero_ofSignMag _ (roundMag_lt _ _)).1 h)

theorem roundsTo_rndInt (n : Int) {d : Nat} (hd : 0 < d) : RoundsTo ((n : ℚ) / d) (rndInt n d) := by
  have h := roundsTo_rnd (decide (n < 0)) n.natAbs hd
  rw [← mul_div_assoc, signQ_mul_natAbs] at h
  by_cases hm : roundMag n.natAbs d = 0
  · rw [rndInt_eq_zero hm]
    exact roundsTo_of_isZero h ((isZero_ofSignMag _ (roundMag_lt _ _)).2 hm) (by decide)
  · rwa [rndInt_eq_rnd hm]

/-! ## `ofInt` (R10) -/

theorem roundsTo_ofInt (n : Int) : RoundsTo n (ofInt n) := by
  have h := roundsTo_rndInt n Nat.one_pos
  rwa [Nat.cast_one, div_one] at h

/-- An integer of at most 53 bits is the number of a word. -/
theorem exists_numQ_eq_int {n : Int} (h : |n| ≤ 2 ^ 53) : ∃ v, isFinite v = true ∧ numQ v = n := by
  have hk : n.natAbs ≤ 2 ^ 53 := by
    rw [Int.abs_eq_natAbs] at h
    exact_mod_cast h
  obtain ⟨v, hfin, hv⟩ := exists_numQ_eq (decide (n < 0)) hk (E := 1074) (by norm_num)
  have hscale : (2 ^ 1074 : ℚ) = scale := by rw [scale, Nat.cast_pow, Nat.cast_ofNat]
  rw [hscale, mul_div_cancel_right₀ _ scale_cast_pos.ne', signQ_mul_natAbs] at hv
  exact ⟨v, hfin, hv⟩

theorem ofInt_exact {n : Int} (h : |n| ≤ 2 ^ 53) : isFinite (ofInt n) = true ∧ numQ (ofInt n) = n := by
  obtain ⟨v, hfin, hv⟩ := exists_numQ_eq_int h
  rw [← hv]
  exact roundsTo_exact (hv ▸ roundsTo_ofInt n) hfin

theorem toInt_ofInt {n : Int} (h : |n| ≤ 2 ^ 53) : toInt (ofInt n) = some n :=
  (toInt_eq_some_iff _ _).2 (ofInt_exact h)

/-- Settles O24: the rounding of a rational, of which `ofInt` is the case of denominator 1. -/
theorem ofIntRoundsToNearest : Obligations.OfIntRoundsToNearest :=
  ⟨roundsTo_ofInt, rfl, fun n _ hd => ⟨roundsTo_rndInt n hd, rndInt_of_isZero⟩,
    fun _ h => ⟨(ofInt_exact h).2, toInt_ofInt h⟩⟩

end Sys2Proof.Machine
end

section
/-! PROOFS. What an instruction that goes on has done to the state (spec/10_state.md): `Effect` lists the few shapes
of the next state, each with what it says of the instruction, and `exec_effect` gives every instruction its shape.
Every statement about all instructions is then a case split along `Effect`. -/

namespace Sys2Proof.Machine

open Sys2Proof.Spec

/-- Register `d` is one that a destination parameter of `i` names (R24). -/
def NamesDest (i : Instr) (d : Reg) : Prop := some d ∈ (destParams i).map regOf

/-- The ways `i` takes the state `s` to a next state. -/
inductive Effect (i : Instr) (s : State) : State → Prop
  /-- A result of `N` in a destination (R110, R117). -/
  | result (d : Reg) (v : NumResult) (hd : NamesDest i d) : Effect i s (s.setRegNum d v).advance
  /-- A word in a destination. -/
  | word (d : Reg) (w : W64) (hd : NamesDest i d) : Effect i s (s.setReg d w).advance
  /-- A drawn word in a destination (R140). -/
  | draw (d : Reg) (w : W64) (hd : NamesDest i d) : Effect i s (s.setReg d w).drawn.advance
  /-- Words in two destinations (R201). -/
  | swap (d e : Reg) (v w : W64) (hd : NamesDest i d) (he : NamesDest i e) :
      Effect i s ((s.setReg d v).setReg e w).advance
  /-- The flags of a comparison (R143, R157). -/
  | flags (f : Flags) (hi : writesFlags i) : Effect i s (s.setFlags f).advance
  /-- A new `pc` alone, the sequential one included (R165, R225). -/
  | jump (a : Int) : Effect i s (s.setPc a)
  /-- The halt state (R169). -/
  | halt (hi : i = .hlt) : Effect i s (s.setHalted true).advance
  /-- A store through an address register (R203, R204). -/
  | store (a : Int) (w : W64) (ha : StoresAt i s a) (hb : s.inBounds a = true) :
      Effect i s (s.setCell a.toNat w).advance
  /-- A push, and where the core goes on (R167, R192, R193). -/
  | push (a : Int) (w : W64) (pc : Int) (hi : usesStack i) (ha : StoresAt i s a) (hb : s.inBounds a = true) :
      Effect i s (((s.setCell a.toNat w).setReg .rsp (ofInt a)).setPc pc)
  /-- RET: the stack shrinks, and the core goes on at the popped address (R168). -/
  | ret (w : W64) (a : Int) (hi : usesStack i) : Effect i s ((s.setReg .rsp w).setPc a)
  /-- IRET: one handler less, too (R170). -/
  | iret (w : W64) (a : Int) (hi : i = .iret) :
      Effect i s (((s.setReg .rsp w).setPc a).setIsrDepth (s.isrDepth - 1))
  /-- A pop into a destination (R194). -/
  | pop (d : Reg) (v w : W64) (hi : usesStack i) (hd : NamesDest i d) :
      Effect i s ((s.setReg .rsp v).setReg d w).advance
  /-- A pop into the flags (R195). -/
  | popf (w : W64) (f : Flags) (hi : i = .popf) : Effect i s ((s.setReg .rsp w).setFlags f).advance
  /-- An entry of the vector table (R216, R217). -/
  | vector (n : Nat) (a : Int) (hi : writesVectors i) (hn : n < Config.nVectors) :
      Effect i s (s.setVector n a).advance
  /-- IN: the data in a destination, and the port (R231). -/
  | portIn (d : Reg) (w : W64) (p : Nat) (v : Port) (hi : writesPorts i) (hd : NamesDest i d)
      (hp : p < Config.nPorts) : Effect i s ((s.setReg d w).setPort p v).advance
  /-- OUT: the port (R232). -/
  | portOut (p : Nat) (v : Port) (hi : writesPorts i) (hp : p < Config.nPorts) :
      Effect i s (s.setPort p v).advance
  /-- The entry of a handler, by an exception or by INT (R266, R218). -/
  | trap (v : Nat) {t : State} (ht : trapEntry s v s.nextAddr = .next t) : Effect i s t

variable {i : Instr} {s t : State}

/-! ## The ends of an instruction -/

/-- An instruction that settles has its own effect, or has entered the handler of an exception (R7). -/
theorem Effect.of_settle {r : Act State} (hok : r = .ok t → Effect i s t) (h : settle s r = .next t) :
    Effect i s t := by
  rcases settle_next h with hr | ⟨e, -, htrap⟩
  · exact hok hr
  · exact .trap e.vector htrap

/-- `Effect.of_settle` past the check of the first Register parameter (R90). -/
theorem Effect.of_settle_opreg {p : RegNum} {k : Reg → Act State}
    (hok : ∀ d, regOf p = some d → k d = .ok t → Effect i s t) (h : settle s (opreg p >>= k) = .next t) :
    Effect i s t :=
  .of_settle (fun hr => have ⟨d, hd, hk⟩ := act_bind_ok hr; hok d (opreg_ok.1 hd) hk) h

theorem namesDest_of_mem {p : RegNum} {d : Reg} (hp : p ∈ destParams i) (hd : regOf p = some d) :
    NamesDest i d := by
  rw [NamesDest, ← hd]
  exact List.mem_map_of_mem hp

/-! ## The templates of Math and Bitwise -/

theorem mathRR_effect {f : W64 → W64 → NumResult} {dst src : RegNum} (hp : dst ∈ destParams i)
    (h : mathRR f dst src s = .next t) : Effect i s t := by
  refine .of_settle_opreg (fun d hd h => ?_) h
  obtain ⟨r, -, h⟩ := act_bind_ok h
  cases h
  exact .result d _ (namesDest_of_mem hp hd)

theorem mathR_effect {f : W64 → NumResult} {dst : RegNum} (hp : dst ∈ destParams i)
    (h : mathR f dst s = .next t) : Effect i s t := by
  refine .of_settle_opreg (fun d hd h => ?_) h
  cases h
  exact .result d _ (namesDest_of_mem hp hd)

theorem divRR_effect {f : W64 → W64 → NumResult} {dst src : RegNum} (hp : dst ∈ destParams i)
    (h : divRR f dst src s = .next t) : Effect i s t := by
  refine .of_settle_opreg (fun d hd h => ?_) h
  obtain ⟨r, -, h⟩ := act_bind_ok h
  split at h
  · cases h
  · cases h
    exact .result d _ (namesDest_of_mem hp hd)

theorem flagsRR_effect {f : W64 → W64 → NumResult} {v1 v2 : RegNum} (hi : writesFlags i)
    (h : flagsRR f v1 v2 s = .next t) : Effect i s t := by
  refine .of_settle_opreg (fun a _ h => ?_) h
  obtain ⟨b, -, h⟩ := act_bind_ok h
  cases h
  exact .flags _ hi

theorem execRand_effect {dst : RegNum} (h : execRand dst s = .next t) : Effect (.rand dst) s t := by
  refine .of_settle_opreg (fun d hd h => ?_) h
  cases h
  exact .draw d _ (namesDest_of_mem (.head _) hd)

theorem bitwiseRR_effect {f : W64 → W64 → Option W64} {dst src : RegNum} (hp : dst ∈ destParams i)
    (h : bitwiseRR f dst src s = .next t) : Effect i s t := by
  refine .of_settle_opreg (fun d hd h => ?_) h
  obtain ⟨r, -, h⟩ := act_bind_ok h
  obtain ⟨w, -, h⟩ := act_bind_ok h
  cases h
  exact .word d w (namesDest_of_mem hp hd)

theorem execNot_effect {dst : RegNum} (h : execNot dst s = .next t) : Effect (.not dst) s t := by
  refine .of_settle_opreg (fun d hd h => ?_) h
  obtain ⟨w, -, h⟩ := act_bind_ok h
  cases h
  exact .word d w (namesDest_of_mem (.head _) hd)

/-! ## Control flow and the stack -/

theorem jumpIf_effect {taken : Bool} {ty : AddrType} {tgt : RegNum} (h : jumpIf taken ty tgt s = .next t) :
    Effect i s t := by
  refine .of_settle_opreg (fun r _ h => ?_) h
  cases taken with
  | true =>
    obtain ⟨a, -, h⟩ := act_bind_ok h
    cases h
    exact .jump a
  | false =>
    cases h
    exact .jump (s.pc + 2)

/-- PUSH, PUSHF and CALL (R192, R193, R167). -/
def Pushes (i : Instr) : Prop := (∃ r, i = .push r) ∨ i = .pushf ∨ ∃ ty r, i = .call ty r

theorem Pushes.usesStack (hi : Pushes i) : usesStack i := by
  unfold Spec.usesStack
  rcases hi with h | h | h <;> simp [h]

theorem push_effect {u : State} {w : W64} (hi : Pushes i) (h : push s w = .ok u) (pc : Int) :
    Effect i s (u.setPc pc) := by
  obtain ⟨top, htop, hb, rfl⟩ := push_ok.1 h
  exact .push (top - 1) w pc hi.usesStack (.inr ⟨hi, top, htop, rfl⟩) hb

theorem execCall_effect {ty : AddrType} {tgt : RegNum} (h : execCall ty tgt s = .next t) :
    Effect (.call ty tgt) s t := by
  refine .of_settle_opreg (fun r _ h => ?_) h
  obtain ⟨a, -, h⟩ := act_bind_ok h
  obtain ⟨u, hu, h⟩ := act_bind_ok h
  cases h
  exact push_effect (.inr (.inr ⟨ty, tgt, rfl⟩)) hu a

theorem execPush_effect {src : RegNum} (h : execPush src s = .next t) : Effect (.push src) s t := by
  refine .of_settle_opreg (fun r _ h => ?_) h
  obtain ⟨u, hu, h⟩ := act_bind_ok h
  cases h
  exact push_effect (.inl ⟨src, rfl⟩) hu (u.pc + 2)

theorem execPushf_effect (h : execPushf s = .next t) : Effect .pushf s t := by
  refine .of_settle (fun h => ?_) h
  obtain ⟨u, hu, h⟩ := act_bind_ok h
  cases h
  exact push_effect (.inr (.inl rfl)) hu (u.pc + 2)

theorem execRet_effect {c : RetCount} (h : execRet c s = .next t) : Effect (.ret c) s t := by
  refine .of_settle (fun h => ?_) h
  obtain ⟨n, -, h⟩ := act_bind_ok h
  obtain ⟨p, -, h⟩ := act_bind_ok h
  obtain ⟨a, -, h⟩ := act_bind_ok h
  cases h
  exact .ret _ a (.inr (.inl ⟨c, rfl⟩))

theorem execIret_effect (h : execIret s = .next t) : Effect .iret s t := by
  refine .of_settle (fun h => ?_) h
  obtain ⟨top, w, a, -, -, -, -, rfl⟩ := returnFromHandler_ok.1 h
  exact .iret _ a rfl

theorem execPop_effect {dst : RegNum} (h : execPop dst s = .next t) : Effect (.pop dst) s t := by
  refine .of_settle_opreg (fun d hd h => ?_) h
  obtain ⟨p, hp, h⟩ := act_bind_ok h
  obtain ⟨top, w, -, -, -, rfl⟩ := pop_ok.1 hp
  cases h
  exact .pop d _ w (by simp [usesStack]) (namesDest_of_mem (.head _) hd)

theorem execPopf_effect (h : execPopf s = .next t) : Effect .popf s t := by
  refine .of_settle (fun h => ?_) h
  obtain ⟨p, hp, h⟩ := act_bind_ok h
  obtain ⟨f, -, h⟩ := act_bind_ok h
  obtain ⟨top, w, -, -, -, rfl⟩ := pop_ok.1 hp
  cases h
  exact .popf _ f rfl

/-! ## Data, Interrupt and IO -/

theorem execMov_effect {dst src : RegNum} (h : execMov dst src s = .next t) : Effect (.mov dst src) s t := by
  refine .of_settle_opreg (fun d hd h => ?_) h
  obtain ⟨r, -, h⟩ := act_bind_ok h
  cases h
  exact .word d _ (namesDest_of_mem (.head _) hd)

theorem execSwp_effect {r1 r2 : RegNum} (h : execSwp r1 r2 s = .next t) : Effect (.swp r1 r2) s t := by
  refine .of_settle_opreg (fun a ha h => ?_) h
  obtain ⟨b, hb, h⟩ := act_bind_ok h
  cases h
  exact .swap a b _ _ (namesDest_of_mem (.head _) ha) (namesDest_of_mem (.tail _ (.head _)) (opreg_ok.1 hb))

theorem execLoad_effect {ty : AddrType} {dst : RegNum} (h : execLoad ty dst s = .next t) :
    Effect (.load ty dst) s t := by
  refine .of_settle_opreg (fun d hd h => ?_) h
  obtain ⟨a, -, h⟩ := act_bind_ok h
  obtain ⟨w, -, h⟩ := act_bind_ok h
  cases h
  exact .word d w (namesDest_of_mem (.head _) hd)

theorem storeReg_effect {ty : AddrType} {addr src : RegNum}
    (hi : i = .strr addr src ∧ ty = .relative ∨ i = .stra addr src ∧ ty = .absolute)
    (h : storeReg ty addr src s = .next t) : Effect i s t := by
  refine .of_settle_opreg (fun d hd h => ?_) h
  obtain ⟨r, -, h⟩ := act_bind_ok h
  obtain ⟨a, ha, h⟩ := act_bind_ok h
  obtain ⟨u, hu, h⟩ := act_bind_ok h
  obtain ⟨k, hk, rfl⟩ := target_ok.1 ha
  obtain ⟨hb, rfl⟩ := memWrite_ok.1 hu
  cases h
  exact .store _ _ (.inl ⟨ty, addr, src, d, k, hi, hd, hk, by cases ty <;> rfl⟩) hb

theorem execLdi_effect {dst : RegNum} {imm : W64} (h : execLdi dst imm s = .next t) :
    Effect (.ldi dst imm) s t := by
  refine .of_settle_opreg (fun d hd h => ?_) h
  cases h
  exact .word d imm (namesDest_of_mem (.head _) hd)

theorem execRip_effect {dst : RegNum} (h : execRip dst s = .next t) : Effect (.rip dst) s t := by
  refine .of_settle_opreg (fun d hd h => ?_) h
  cases h
  exact .word d _ (namesDest_of_mem (.head _) hd)

theorem setHandler_effect {ty : AddrType} {v : BitVec 16} {addr : RegNum} (hi : writesVectors i)
    (h : setHandler ty v addr s = .next t) : Effect i s t := by
  refine .of_settle_opreg (fun r _ h => ?_) h
  obtain ⟨n, hn, h⟩ := act_bind_ok h
  obtain ⟨a, -, h⟩ := act_bind_ok h
  obtain ⟨rfl, hlt⟩ := vectorField_ok.1 hn
  cases h
  exact .vector _ a hi hlt

theorem execInt_effect {vec : RegNum} (h : execInt vec s = .next t) : Effect (.int vec) s t := by
  rcases settleWith_next h with ⟨v, -, htrap⟩ | ⟨e, -, htrap⟩
  · exact .trap v htrap
  · exact .trap e.vector htrap

theorem execIn_effect {dst port : RegNum} (h : execIn dst port s = .next t) : Effect (.inp dst port) s t := by
  refine .of_settle_opreg (fun d hd h => ?_) h
  obtain ⟨q, -, h⟩ := act_bind_ok h
  obtain ⟨p, hp, h⟩ := act_bind_ok h
  obtain ⟨_, -, h⟩ := act_bind_ok h
  cases h
  exact .portIn d _ p _ ⟨dst, port, .inl rfl⟩ (namesDest_of_mem (.head _) hd) (portOf_ok.1 hp).2

theorem execOut_effect {src port : RegNum} (h : execOut src port s = .next t) : Effect (.outp src port) s t := by
  refine .of_settle_opreg (fun r _ h => ?_) h
  obtain ⟨q, -, h⟩ := act_bind_ok h
  obtain ⟨p, hp, h⟩ := act_bind_ok h
  obtain ⟨_, -, h⟩ := act_bind_ok h
  cases h
  exact .portOut p _ ⟨src, port, .inr rfl⟩ (portOf_ok.1 hp).2

theorem execInr_effect {dst port : RegNum} (h : execInr dst port s = .next t) : Effect (.inr dst port) s t := by
  refine .of_settle_opreg (fun d hd h => ?_) h
  obtain ⟨q, -, h⟩ := act_bind_ok h
  obtain ⟨p, -, h⟩ := act_bind_ok h
  cases h
  exact .word d _ (namesDest_of_mem (.head _) hd)

theorem execOutr_effect {dst port : RegNum} (h : execOutr dst port s = .next t) :
    Effect (.outr dst port) s t := by
  refine .of_settle_opreg (fun d hd h => ?_) h
  obtain ⟨q, -, h⟩ := act_bind_ok h
  obtain ⟨p, -, h⟩ := act_bind_ok h
  cases h
  exact .word d _ (namesDest_of_mem (.head _) hd)

theorem execHlt_effect (h : execHlt s = .next t) : Effect .hlt s t := by
  cases h
  exact .halt rfl

theorem execNop_effect (h : execNop s = .next t) : Effect .nop s t := by
  cases h
  exact .jump (s.pc + 2)

/-! ## Every instruction -/

/-- Every instruction that goes on has one of the effects. -/
theorem exec_effect (h : exec i s = .next t) : Effect i s t := by
  cases i with
  | add | sub | mul | max | min => exact mathRR_effect (.head _) h
  | div | idiv | mod => exact divRR_effect (.head _) h
  | exp => exact mathRR_effect (f := fun a b => .word (Config.pow a b)) (.head _) h
  | expe => exact mathR_effect (f := fun a => .word (Config.pow a eulerWord)) (.head _) h
  | log => exact mathR_effect (f := fun a => .word (Config.log10 a)) (.head _) h
  | logn => exact mathR_effect (f := fun a => .word (Config.ln a)) (.head _) h
  | sqrt | flr | ceil | abs => exact mathR_effect (.head _) h
  | sin => exact mathR_effect (f := fun a => .word (Config.sin a)) (.head _) h
  | cos => exact mathR_effect (f := fun a => .word (Config.cos a)) (.head _) h
  | tan => exact mathR_effect (f := fun a => .word (Config.tan a)) (.head _) h
  | asin => exact mathR_effect (f := fun a => .word (Config.asin a)) (.head _) h
  | acos => exact mathR_effect (f := fun a => .word (Config.acos a)) (.head _) h
  | atan => exact mathR_effect (f := fun a => .word (Config.atan a)) (.head _) h
  | inc => exact mathR_effect (f := fun a => numAdd a oneWord) (.head _) h
  | dec => exact mathR_effect (f := fun a => numSub a oneWord) (.head _) h
  | rand => exact execRand_effect h
  | cmp v1 v2 => exact flagsRR_effect (f := fun a b => numSub b a) (.inl ⟨v1, v2, .inl rfl⟩) h
  | test v1 v2 => exact flagsRR_effect (.inl ⟨v1, v2, .inr rfl⟩) h
  | and | or | xor | shl | shr => exact bitwiseRR_effect (.head _) h
  | not => exact execNot_effect h
  | jmp | jp | jnp | jz | jnz | js | jns | jl | jle | jg | jge | loop => exact jumpIf_effect h
  | call => exact execCall_effect h
  | ret => exact execRet_effect h
  | hlt => exact execHlt_effect h
  | iret => exact execIret_effect h
  | push => exact execPush_effect h
  | pushf => exact execPushf_effect h
  | pop => exact execPop_effect h
  | popf => exact execPopf_effect h
  | mov => exact execMov_effect h
  | swp => exact execSwp_effect h
  | load => exact execLoad_effect h
  | strr addr src => exact storeReg_effect (.inl ⟨rfl, rfl⟩) h
  | stra addr src => exact storeReg_effect (.inr ⟨rfl, rfl⟩) h
  | ldi => exact execLdi_effect h
  | rip => exact execRip_effect h
  | setisrr v addr => exact setHandler_effect ⟨v, addr, .inl rfl⟩ h
  | setisra v addr => exact setHandler_effect ⟨v, addr, .inr rfl⟩ h
  | int => exact execInt_effect h
  | nop => exact execNop_effect h
  | inp => exact execIn_effect h
  | outp => exact execOut_effect h
  | inr => exact execInr_effect h
  | outr => exact execOutr_effect h

end Sys2Proof.Machine
end

section
/-! PROOFS. The invariant of the machine (spec/10_state.md R27 to R37, spec/20_memory.md R50, R51): each write of a
part of the state keeps it, so each effect of an instruction, each agent's step and each step of the core does. -/

namespace Sys2Proof.Machine

open Sys2Proof.Spec

/-! ## The canonical forms -/

theorem ports_wf_iff (m : Sparse Port) : Ports.wf m = true ↔
    Sparse.wf m = true ∧ Sparse.keysBelow Config.nPorts m = true ∧ ∀ e ∈ m, e.2 ≠ Port.reset := by
  simp [Ports.wf, and_assoc]

theorem vectors_wf_iff (m : Sparse Int) : Vectors.wf m = true ↔
    Sparse.wf m = true ∧ Sparse.keysBelow Config.nVectors m = true := by
  simp [Vectors.wf]

theorem nondecreasingFrom_iff (lo : Nat) (l : List Nat) :
    nondecreasingFrom lo l = true ↔ (lo :: l).IsChain (· ≤ ·) := by
  induction l generalizing lo with
  | nil => simp [nondecreasingFrom]
  | cons v rest ih => rw [nondecreasingFrom, Bool.and_eq_true, decide_eq_true_eq, ih, List.isChain_cons_cons]

theorem pending_wf_iff (l : List Nat) :
    Pending.wf l = true ↔ l.Pairwise (· ≤ ·) ∧ ∀ v ∈ l, isIrqVector v = true := by
  rw [Pending.wf, Bool.and_eq_true, nondecreasingFrom_iff, List.isChain_iff_pairwise, List.pairwise_cons,
    List.all_eq_true]
  simp

/-- The bag takes an occurrence in as a sorted list does. -/
theorem addPending_eq_orderedInsert (l : List Nat) (v : Nat) : addPending l v = l.orderedInsert (· ≤ ·) v := by
  induction l with
  | nil => rfl
  | cons u rest ih => simp only [addPending, List.orderedInsert, ih]

theorem pending_wf_addPending {l : List Nat} {v : Nat} (h : Pending.wf l = true) (hv : isIrqVector v = true) :
    Pending.wf (addPending l v) = true := by
  obtain ⟨hsorted, hirq⟩ := (pending_wf_iff l).1 h
  rw [addPending_eq_orderedInsert, pending_wf_iff]
  refine ⟨hsorted.orderedInsert v l, fun u hu => ?_⟩
  rcases (List.mem_orderedInsert _).1 hu with rfl | hmem
  · exact hv
  · exact hirq u hmem

theorem pending_wf_erase {l : List Nat} (h : Pending.wf l = true) (v : Nat) : Pending.wf (l.erase v) = true := by
  obtain ⟨hsorted, hirq⟩ := (pending_wf_iff l).1 h
  exact (pending_wf_iff _).2 ⟨hsorted.sublist List.erase_sublist, fun u hu => hirq u (List.mem_of_mem_erase hu)⟩

theorem isIrqVector_line (k : Fin 64) : isIrqVector (Config.irqBase + k.val) = true := by
  simp [isIrqVector, Config.nIrq]

theorem ports_wf_insert {m : Sparse Port} {p : Nat} {v : Port} (h : Ports.wf m = true) (hp : p < Config.nPorts)
    (hv : v ≠ Port.reset) : Ports.wf (Sparse.insert m p v) = true := by
  obtain ⟨hwf, hkeys, hlisted⟩ := (ports_wf_iff m).1 h
  refine (ports_wf_iff _).2 ⟨wf_insert p v hwf, keysBelow_insert v hkeys hp, fun e he => ?_⟩
  rcases mem_insert he with rfl | hmem
  · exact hv
  · exact hlisted e hmem

theorem ports_wf_erase {m : Sparse Port} (h : Ports.wf m = true) (p : Nat) :
    Ports.wf (Sparse.erase m p) = true := by
  obtain ⟨hwf, hkeys, hlisted⟩ := (ports_wf_iff m).1 h
  exact (ports_wf_iff _).2 ⟨wf_erase p hwf, keysBelow_erase p hkeys, fun e he => hlisted e (mem_erase he)⟩

theorem vectors_wf_insert {m : Sparse Int} {n : Nat} (h : Vectors.wf m = true) (a : Int)
    (hn : n < Config.nVectors) : Vectors.wf (Sparse.insert m n a) = true := by
  obtain ⟨hwf, hkeys⟩ := (vectors_wf_iff m).1 h
  exact (vectors_wf_iff _).2 ⟨wf_insert n a hwf, keysBelow_insert a hkeys hn⟩

/-! ## The writes of the state -/

namespace Inv

variable {s t : State}

theorem setReg (h : Inv s) (r : Reg) (w : W64) : Inv (s.setReg r w) := { h with }

theorem setPc (h : Inv s) (a : Int) : Inv (s.setPc a) := { h with }

theorem advance (h : Inv s) : Inv s.advance := { h with }

theorem setIr (h : Inv s) (w : W128) : Inv (s.setIr w) := { h with }

theorem setIsrDepth (h : Inv s) (n : Nat) : Inv (s.setIsrDepth n) := { h with }

theorem setHalted (h : Inv s) (b : Bool) : Inv (s.setHalted b) := { h with }

theorem drawn (h : Inv s) : Inv s.drawn := { h with }

theorem setRegNum (h : Inv s) (r : Reg) (v : NumResult) : Inv (s.setRegNum r v) := by
  cases v with
  | word w => exact h.setReg r w
  | nan => exact (h.setReg r _).drawn

theorem takeTurn (h : Inv s) : Inv s.takeTurn.2 := by
  rw [takeTurn_eq]
  exact { h with }

theorem setFlags (h : Inv s) (f : Flags) : Inv (s.setFlags f) := { h with reserved := packFlags_reserved f }

theorem setPending (h : Inv s) {l : List Nat} (hl : Pending.wf l = true) : Inv (s.setPending l) :=
  { h with pending := hl }

theorem setCell (h : Inv s) {a : Int} (hb : s.inBounds a = true) (w : W64) : Inv (s.setCell a.toNat w) :=
  have hwf := memory_wf_memWrite h.memory h.cells (memWrite_ok.2 ⟨hb, rfl⟩)
  { h with memory := hwf.1, cells := hwf.2 }

theorem setVector (h : Inv s) {n : Nat} (hn : n < Config.nVectors) (a : Int) : Inv (s.setVector n a) :=
  { h with vectors := vectors_wf_insert h.vectors a hn }

theorem setPort (h : Inv s) {p : Nat} (hp : p < Config.nPorts) (v : Port) : Inv (s.setPort p v) := by
  refine { h with ports := ?_ }
  rw [setPort_ports]
  split
  · exact ports_wf_erase h.ports p
  · next hv => exact ports_wf_insert h.ports hp hv

/-! ## The steps -/

theorem trapEntry (h : Inv s) {v : Nat} {ret : Int} (ht : Machine.trapEntry s v ret = .next t) : Inv t := by
  obtain ⟨handler, top, -, -, hb, rfl⟩ := trapEntry_next.1 ht
  exact ((((h.setCell hb _).setReg .rsp _).setIsrDepth _).setHalted false).setPc handler

/-- Every effect of an instruction keeps the invariant. -/
theorem effect (h : Inv s) {i : Instr} (he : Effect i s t) : Inv t := by
  cases he with
  | result d v => exact (h.setRegNum d v).advance
  | word d w => exact (h.setReg d w).advance
  | draw d w => exact (h.setReg d w).drawn.advance
  | swap d e v w => exact ((h.setReg d v).setReg e w).advance
  | flags f => exact (h.setFlags f).advance
  | jump a => exact h.setPc a
  | halt => exact (h.setHalted true).advance
  | store a w _ hb => exact (h.setCell hb w).advance
  | push a w pc _ _ hb => exact ((h.setCell hb w).setReg .rsp _).setPc pc
  | ret w a => exact (h.setReg .rsp w).setPc a
  | iret w a => exact ((h.setReg .rsp w).setPc a).setIsrDepth _
  | pop d v w => exact ((h.setReg .rsp v).setReg d w).advance
  | popf w f => exact ((h.setReg .rsp w).setFlags f).advance
  | vector n a _ hn => exact (h.setVector hn a).advance
  | portIn d w p v _ _ hp => exact ((h.setReg d w).setPort hp v).advance
  | portOut p v _ hp => exact (h.setPort hp v).advance
  | trap v ht => exact h.trapEntry ht

theorem execWord (h : Inv s) {w : W128} (ht : Machine.execWord s w = .next t) : Inv t := by
  rcases execWord_next ht with ⟨i, -, hi⟩ | ⟨-, htrap⟩
  · exact (h.setIr w).effect (exec_effect hi)
  · exact (h.setIr w).trapEntry htrap

theorem takeInterrupt (h : Inv s) (ht : Machine.takeInterrupt s = .next t) : Inv t :=
  (h.setPending (pending_wf_erase h.pending _)).drawn.trapEntry ht

theorem coreStep (h : Inv s) (ht : Machine.coreStep s = .next t) : Inv t := by
  rcases coreStep_next ht with ⟨-, hint⟩ | ⟨-, -, rfl⟩ | ⟨-, -, ⟨w, -, hw⟩ | ⟨e, -, htrap⟩⟩
  · exact h.takeInterrupt hint
  · exact h
  · exact h.execWord hw
  · exact h.trapEntry htrap

theorem agentStep (h : Inv s) (x : Turn) : Inv (Machine.agentStep x s) := by
  cases x with
  | core => exact h
  | irq k => exact h.setPending (pending_wf_addPending h.pending (isIrqVector_line k))
  | deliver p | take p | readyOut p | withdraw p => exact h.setPort p.isLt _

end Inv

/-- Settles O15: the turn used up keeps the invariant, and then the move of the core or of another agent does. -/
theorem everyStepKeepsTheInvariant : Obligations.EveryStepKeepsTheInvariant := by
  intro s t h hstep
  rcases step_next hstep with ⟨-, hcore⟩ | ⟨-, rfl⟩
  · exact h.takeTurn.coreStep hcore
  · exact h.takeTurn.agentStep _

/-! ## Reset (R37, R301) -/

/-- Settles O13: the values of the reset state. -/
theorem resetState : Obligations.ResetState :=
  ⟨fun _ => rfl, rfl, rfl, rfl, rfl, fun _ => ⟨rfl, rfl⟩⟩

/-- Settles O14: the maps and the bag of the reset state are empty, and its size of memory is 256. -/
theorem invariantHoldsAtReset : Obligations.InvariantHoldsAtReset where
  memory := memory_wf_reset
  cells := rfl
  sizeLow := by decide
  sizeHigh := by decide
  vectors := rfl
  ports := rfl
  pending := rfl
  reserved := rfl

end Sys2Proof.Machine
end

section
/-! PROOFS. What an instruction leaves unchanged (spec/10_state.md R24 to R38), read off its effect, and the fetch
that finds no memory (spec/20_memory.md R56). -/

namespace Sys2Proof.Machine

open Sys2Proof.Spec

variable {i : Instr} {s t : State}

/-! ## The writers of RFLAGS, the vector table and the ports (R29, R30, R35) -/

/-- Trap entry writes none of the three. -/
theorem trapEntry_keeps {v : Nat} {ret : Int} (h : trapEntry s v ret = .next t) :
    t.rflags = s.rflags ∧ t.ivt = s.ivt ∧ t.ports = s.ports := by
  obtain ⟨handler, top, -, -, -, rfl⟩ := trapEntry_next.1 h
  exact ⟨rfl, rfl, rfl⟩

theorem Effect.rflags_eq (h : Effect i s t) (hi : ¬ writesFlags i) : t.rflags = s.rflags := by
  cases h with
  | flags f hw => exact absurd hw hi
  | popf w f hw => exact absurd (.inr hw) hi
  | trap v ht => exact (trapEntry_keeps ht).1
  | result d v => exact setRegNum_rflags s d v
  | _ => rfl

theorem Effect.ivt_eq (h : Effect i s t) (hi : ¬ writesVectors i) : t.ivt = s.ivt := by
  cases h with
  | vector n a hw => exact absurd hw hi
  | trap v ht => exact (trapEntry_keeps ht).2.1
  | result d v => exact setRegNum_ivt s d v
  | _ => rfl

theorem Effect.ports_eq (h : Effect i s t) (hi : ¬ writesPorts i) : t.ports = s.ports := by
  cases h with
  | portIn d w p v hw | portOut p v hw => exact absurd hw hi
  | trap v ht => exact (trapEntry_keeps ht).2.2
  | result d v => exact setRegNum_ports s d v
  | _ => rfl

/-- Settles O18: each effect that writes one of the three is that of a named writer. -/
theorem flagsVectorsAndPortsHaveFewWriters : Obligations.FlagsVectorsAndPortsHaveFewWriters := by
  refine ⟨fun i s t h => ?_, fun s v ret t => trapEntry_keeps⟩
  have he := exec_effect h
  exact ⟨he.rflags_eq, he.ivt_eq, he.ports_eq⟩

/-! ## The registers (R24) -/

theorem eq_of_setReg_reg_ne {d r : Reg} {w : W64} (h : (s.setReg d w).reg r ≠ s.reg r) : r = d :=
  by_contra fun hne => h (setReg_reg_ne s w hne)

theorem eq_of_setRegNum_reg_ne {d r : Reg} {v : NumResult} (h : (s.setRegNum d v).reg r ≠ s.reg r) : r = d :=
  by_contra fun hne => h (setRegNum_reg_ne s v hne)

theorem eq_or_eq_of_setReg_setReg_reg_ne {d e r : Reg} {v w : W64}
    (h : ((s.setReg d v).setReg e w).reg r ≠ s.reg r) : r = d ∨ r = e := by
  by_contra! hne
  exact h ((setReg_reg_ne _ w hne.2).trans (setReg_reg_ne s v hne.1))

/-- A register that trap entry changes is RSP, with one handler more. -/
theorem trapEntry_reg_ne {v : Nat} {ret : Int} {r : Reg} (h : trapEntry s v ret = .next t)
    (hr : t.reg r ≠ s.reg r) : r = .rsp ∧ t.isrDepth = s.isrDepth + 1 := by
  obtain ⟨handler, top, -, -, -, rfl⟩ := trapEntry_next.1 h
  refine ⟨by_contra fun hne => hr ?_, rfl⟩
  rw [enterHandler_reg, if_neg hne]

theorem Effect.reg_changed (h : Effect i s t) {r : Reg} (hr : t.reg r ≠ s.reg r) :
    NamesDest i r ∨ (r = .rsp ∧ (usesStack i ∨ t.isrDepth = s.isrDepth + 1)) := by
  cases h with
  | result d v hd => exact .inl (eq_of_setRegNum_reg_ne hr ▸ hd)
  | word d w hd | draw d w hd | portIn d w p v hi hd => exact .inl (eq_of_setReg_reg_ne hr ▸ hd)
  | swap d e v w hd he =>
    rcases eq_or_eq_of_setReg_setReg_reg_ne hr with rfl | rfl
    · exact .inl hd
    · exact .inl he
  | pop d v w hi hd =>
    rcases eq_or_eq_of_setReg_setReg_reg_ne hr with hrsp | rfl
    · exact .inr ⟨hrsp, .inl hi⟩
    · exact .inl hd
  | push a w pc hi | ret w a hi => exact .inr ⟨eq_of_setReg_reg_ne hr, .inl hi⟩
  | iret w a hi => exact .inr ⟨eq_of_setReg_reg_ne hr, .inl (by simp [usesStack, hi])⟩
  | popf w f hi => exact .inr ⟨eq_of_setReg_reg_ne hr, .inl (by simp [usesStack, hi])⟩
  | trap v ht =>
    obtain ⟨hrsp, hdepth⟩ := trapEntry_reg_ne ht hr
    exact .inr ⟨hrsp, .inr hdepth⟩
  | flags | jump | halt | store | vector | portOut => exact absurd rfl hr

/-- Settles O20: each effect changes the destinations it names, and RSP. -/
theorem onlyNamedRegistersChange : Obligations.OnlyNamedRegistersChange :=
  fun _ _ _ h _ hr => (exec_effect h).reg_changed hr

/-! ## IR, `pending`, the size of memory, whose turn it is, and the halt state (R26, R31, R32, R38) -/

/-- The fields that no instruction writes. -/
structure SameRest (s t : State) : Prop where
  ir : t.ir = s.ir
  pending : t.pending = s.pending
  memSize : t.memSize = s.memSize
  turns : t.turns = s.turns
  moves : t.moves = s.moves

/-- Trap entry leaves the halt state (R270), and those fields. -/
theorem trapEntry_sameRest {v : Nat} {ret : Int} (h : trapEntry s v ret = .next t) :
    SameRest s t ∧ t.halted = false := by
  obtain ⟨handler, top, -, -, -, rfl⟩ := trapEntry_next.1 h
  exact ⟨⟨rfl, rfl, rfl, rfl, rfl⟩, rfl⟩

theorem Effect.sameRest (h : Effect i s t) : SameRest s t := by
  cases h with
  | trap v ht => exact (trapEntry_sameRest ht).1
  | result d v =>
    exact ⟨setRegNum_ir s d v, setRegNum_pending s d v, setRegNum_memSize s d v, setRegNum_turns s d v,
      setRegNum_moves s d v⟩
  | _ => exact ⟨rfl, rfl, rfl, rfl, rfl⟩

theorem Effect.halted_imp (h : Effect i s t) (ht : t.halted = true) : s.halted = true ∨ i = .hlt := by
  cases h with
  | halt hi => exact .inr hi
  | trap v htrap => exact absurd ht (by simp [(trapEntry_sameRest htrap).2])
  | result d v => exact .inl ((setRegNum_halted s d v).symm.trans ht)
  | _ => exact .inl ht

/-- Settles O21: no effect writes those fields, and only HLT's sets the halt state. -/
theorem instructionsLeaveTheRest : Obligations.InstructionsLeaveTheRest := by
  intro i s t h
  obtain ⟨hir, hpending, hsize, hturns, hmoves⟩ := (exec_effect h).sameRest
  exact ⟨hir, hpending, hsize, hturns, hmoves, (exec_effect h).halted_imp⟩

/-! ## A fetch outside memory (R56, R253) -/

theorem memReadInstr_of_not_inMem {a : Int} (h : ¬ (InMem s a ∧ InMem s (a + 1))) :
    memReadInstr s a = .error (.raise .memoryOutOfBounds) := by
  refine if_neg ?_
  rw [Bool.and_eq_true, inBounds_iff, inBounds_iff]
  exact h

/-- Settles O7: the fetch raises, before IR is written. -/
theorem fetchOutOfBoundsRaises : Obligations.FetchOutOfBoundsRaises := by
  intro s u hm hf hout
  rw [step_of_coreMoves hm]
  have hu := eq_of_moves hm
  have hfetches : Fetches u := by rw [hu]; exact hf
  have hfetch : fetch u = .error (.raise .memoryOutOfBounds) := by rw [hu]; exact memReadInstr_of_not_inMem hout
  rw [coreStep_of_fetches hfetches, hfetch]
  rfl

end Sys2Proof.Machine
end

section
/-! PROOFS. The flag function (spec/10_state.md R28) and the comparison (spec/40_math.md R143): a flag is a question
about `scaledNum`, and a difference of at least one unit `1 / scale` never rounds to zero. -/

namespace Sys2Proof.Machine

open Sys2Proof.Spec

/-! ## The sign and the size of a word -/

theorem magnitude_eq_zero_iff (w : W64) : magnitude w = 0 ↔ isZero w = true := by
  rw [isZero_iff]
  by_cases he : expField w = 0
  · rw [magnitude_of_subnormal he]
    simp [he]
  · rw [magnitude_of_normal he]
    simp [he]

theorem scaledNum_neg_iff (w : W64) : scaledNum w < 0 ↔ signBit w = true ∧ isZero w = false := by
  rw [← Bool.not_eq_true, ← magnitude_eq_zero_iff, scaledNum, signedInt]
  cases signBit w with
  | false => simp
  | true => simp; omega

theorem numQ_lt_numQ_iff (v w : W64) : numQ v < numQ w ↔ scaledNum v < scaledNum w := by
  rw [numQ_eq_scaledNum, numQ_eq_scaledNum, div_lt_div_iff_of_pos_right scale_cast_pos, Int.cast_lt]

theorem numQ_eq_numQ_iff (v w : W64) : numQ v = numQ w ↔ scaledNum v = scaledNum w := by
  rw [numQ_eq_scaledNum, numQ_eq_scaledNum, div_left_inj' scale_cast_pos.ne', Int.cast_inj]

theorem isNaN_of_isFinite {w : W64} (h : isFinite w = true) : isNaN w = false := by
  have he := (isFinite_iff w).1 h
  simp [isNaN, Nat.ne_of_lt he]

theorem isZero_of_not_isFinite {w : W64} (h : isFinite w = false) : isZero w = false := by
  rw [← Bool.not_eq_true, isFinite_iff] at h
  rw [← Bool.not_eq_true, isZero_iff]
  omega

/-! ## The three flags (R28) -/

/-- Below `+0`: a finite word by its number, an infinity by its sign. -/
theorem numBelow_zero_iff (w : W64) : numBelow w 0#64 ↔ scaledNum w < 0 := by
  have hfin : isFinite 0#64 = true := rfl
  rw [numBelow]
  split
  · rw [numQ_lt_numQ_iff]
    rfl
  · next hw =>
    rw [scaledNum_neg_iff, isZero_of_not_isFinite (Bool.not_eq_true _ ▸ hw)]
    simp [hfin]

/-- Half the number is an integer when two whole scales divide the size. -/
theorem numQ_half_int_iff (w : W64) : (∃ k : Int, numQ w / 2 = k) ↔ 2 * scale ∣ magnitude w := by
  have hhalf : ∀ k : Int, numQ w / 2 = k ↔ scaledNum w = (2 * scale : Nat) * k := fun k => by
    rw [div_eq_iff two_ne_zero, ← Int.cast_ofNat, ← Int.cast_mul, numQ_eq_intCast_iff, Nat.cast_mul]
    constructor
    all_goals
      intro h
      rw [h]
      push_cast
      ring
  simp only [hhalf]
  rw [← natAbs_signedInt (signBit w) (magnitude w), ← Int.natCast_dvd]
  rfl

/-- Settles O25: each flag is decided on `scaledNum` or its size. -/
theorem flagFunction : Obligations.FlagFunction := by
  intro r
  refine ⟨Iff.rfl, ?_, ?_⟩
  · rw [numBelow_zero_iff]
    simp [flagsOf]
  · rw [numQ_half_int_iff]
    simp [flagsOf, Nat.dvd_iff_mod_eq_zero]

/-! ## A difference of two words (R111, R143) -/

theorem signBit_negate (w : W64) : signBit (negate w) = !signBit w := by
  rw [signBit, negate, BitVec.getLsbD_xor, ← signBit]
  exact Bool.xor_true _

theorem expField_negate (w : W64) : expField (negate w) = expField w := by
  rw [expField, negate, BitVec.extractLsb'_xor, show negZero.extractLsb' 52 11 = 0#11 from rfl, BitVec.xor_zero,
    ← expField]

theorem fracField_negate (w : W64) : fracField (negate w) = fracField w := by
  rw [fracField, negate, BitVec.extractLsb'_xor, show negZero.extractLsb' 0 52 = 0#52 from rfl, BitVec.xor_zero,
    ← fracField]

theorem magnitude_negate (w : W64) : magnitude (negate w) = magnitude w := by
  simp only [magnitude, expField_negate, fracField_negate]

theorem isFinite_negate (w : W64) : isFinite (negate w) = isFinite w := by
  simp only [isFinite, expField_negate]

theorem signedInt_not (neg : Bool) (m : Nat) : signedInt (!neg) m = -signedInt neg m := by
  cases neg <;> simp [signedInt]

theorem scaledNum_negate (w : W64) : scaledNum (negate w) = -scaledNum w := by
  rw [scaledNum, signBit_negate, magnitude_negate, signedInt_not, ← scaledNum]

theorem scaledNum_of_isZero {w : W64} (h : isZero w = true) : scaledNum w = 0 := by
  rw [scaledNum, (magnitude_eq_zero_iff w).2 h, signedInt_zero]

theorem isInf_of_isFinite {w : W64} (h : isFinite w = true) : isInf w = false := by
  have he := (isFinite_iff w).1 h
  simp [isInf, Nat.ne_of_lt he]

/-- The sum of finite words is rounded once, but for two negative zeros (R111). -/
theorem numAdd_of_isFinite {v w : W64} (hv : isFinite v = true) (hw : isFinite w = true) :
    numAdd v w = .word (rndInt (scaledNum v + scaledNum w) scale) ∨
      (scaledNum v + scaledNum w = 0 ∧ numAdd v w = .word negZero) := by
  simp only [numAdd, isNaN_of_isFinite hv, isNaN_of_isFinite hw, isInf_of_isFinite hv, isInf_of_isFinite hw,
    Bool.or_self, Bool.false_eq_true, if_false]
  split
  · next hzero =>
    simp only [Bool.and_eq_true] at hzero
    obtain ⟨⟨⟨hv0, hw0⟩, -⟩, -⟩ := hzero
    exact .inr ⟨by rw [scaledNum_of_isZero hv0, scaledNum_of_isZero hw0, add_zero], rfl⟩
  · exact .inl rfl

/-- A whole number of units, not zero, does not round to zero: with the least unit its significand is itself. -/
theorem roundMag_scale_eq_zero_iff (n : Nat) : roundMag n scale = 0 ↔ n = 0 := by
  refine ⟨fun hzero => by_contra fun hn => ?_, fun h => by rw [h, roundMag_zero]⟩
  have hpos := Nat.pos_of_ne_zero hn
  have h := roundedAt_significand hpos scale_pos
  have hsum : unitField n scale * 2 ^ 52 + significand n scale = 0 := by
    rw [roundMag_of_pos hpos] at hzero
    omega
  obtain ⟨hunit, hsig⟩ : unitField n scale = 0 ∧ significand n scale = 0 := by omega
  have hunits : (n / scale / 2 ^ ulpExp n scale : ℚ) = n := by
    rw [two_zpow_ulpExp, hunit, pow_zero, div_div_div_cancel_right₀ scale_cast_pos.ne', div_one]
  have hnear := h.near
  rw [hunits, hsig, Nat.cast_zero, zero_sub, abs_neg, Nat.abs_cast] at hnear
  have hone : (1 : ℚ) ≤ n := Nat.one_le_cast.2 hpos
  linarith

theorem roundMag_le (n d : Nat) : roundMag n d ≤ 2047 * 2 ^ 52 := by
  rcases Nat.eq_zero_or_pos n with rfl | hn
  · exact Nat.zero_le _
  · rw [roundMag_of_pos hn]
    exact min_le_right _ _

theorem isNaN_ofSignMag (neg : Bool) {m : Nat} (hm : m ≤ 2047 * 2 ^ 52) : isNaN (ofSignMag neg m) = false := by
  have hlt : m < 2 ^ 63 := by omega
  rw [isNaN, expField_ofSignMag neg hlt, fracField_ofSignMag neg hlt, Bool.and_eq_false_imp, beq_iff_eq,
    bne_eq_false_iff_eq]
  omega

theorem isZero_rndInt_scale (n : Int) : isZero (rndInt n scale) = true ↔ n = 0 := by
  rw [rndInt, isZero_ofSignMag _ (roundMag_lt _ _), roundMag_scale_eq_zero_iff, Int.natAbs_eq_zero]

theorem signBit_rndInt_scale (n : Int) : signBit (rndInt n scale) = true ↔ n < 0 := by
  rw [rndInt, signBit_ofSignMag _ (roundMag_lt _ _), Bool.and_eq_true, decide_eq_true_eq, bne_iff_ne, Ne,
    roundMag_scale_eq_zero_iff]
  omega

/-- The flags of a rounded whole number of units are those of the number itself. -/
theorem flagsOf_rndInt_scale (n : Int) :
    ((flagsOf (rndInt n scale)).zf = true ↔ n = 0) ∧ ((flagsOf (rndInt n scale)).sf = true ↔ n < 0) := by
  have hnan : isNaN (rndInt n scale) = false := isNaN_ofSignMag _ (roundMag_le _ _)
  refine ⟨isZero_rndInt_scale n, ?_⟩
  simp only [flagsOf, hnan, Bool.not_false, Bool.true_and, decide_eq_true_eq]
  rw [scaledNum_neg_iff, signBit_rndInt_scale, ← Bool.not_eq_true, isZero_rndInt_scale]
  omega

/-- The flags of the difference of two finite words are their order. -/
theorem flagsOfNum_numSub {v w : W64} (hv : isFinite v = true) (hw : isFinite w = true) :
    ((flagsOfNum (numSub v w)).zf = true ↔ numQ v = numQ w) ∧
      ((flagsOfNum (numSub v w)).sf = true ↔ numQ v < numQ w) := by
  have hdiff : scaledNum v + scaledNum (negate w) = scaledNum v - scaledNum w := by
    rw [scaledNum_negate, sub_eq_add_neg]
  rw [numQ_eq_numQ_iff, numQ_lt_numQ_iff, ← sub_eq_zero (a := scaledNum v), ← sub_neg (a := scaledNum v), ← hdiff]
  rcases numAdd_of_isFinite hv ((isFinite_negate w).trans hw) with h | ⟨hzero, h⟩
  · rw [numSub, h]
    exact flagsOf_rndInt_scale _
  · rw [numSub, h, hzero]
    decide

/-! ## CMP -/

theorem execCmp_ok {s : State} {v1 v2 : RegNum} {a b : Reg} (h1 : regOf v1 = some a) (h2 : regOf v2 = some b) :
    exec (.cmp v1 v2) s = .next (s.setFlags (flagsOfNum (numSub (s.reg b) (s.reg a)))).advance := by
  simp [exec, execCmp, flagsRR, opreg_ok.2 h1, opreg_ok.2 h2]

/-- Settles O31: the flags are those of the difference, which are the order. -/
theorem compareDecidesTheOrder : Obligations.CompareDecidesTheOrder := by
  intro s v1 v2 a b h1 h2 ha hb
  obtain ⟨hzf, hsf⟩ := flagsOfNum_numSub hb ha
  refine ⟨_, execCmp_ok h1 h2, ?_⟩
  have hflags := setFlags_flags s (flagsOfNum (numSub (s.reg b) (s.reg a)))
  rw [← hflags] at hzf hsf
  exact ⟨hzf, hsf⟩

end Sys2Proof.Machine
end

section
/-! PROOFS. What an instruction does to memory (spec/20_memory.md R54, R61): the store of an instruction that
enters a handler, of a storing instruction that does not, and the frame of every other one; and the load that
reads a store back. -/

namespace Sys2Proof.Machine

open Sys2Proof.Spec

variable {i : Instr} {s t : State}

/-! ## Entering a handler (R266, R270) -/

/-- The step from `s` to `t` is the entry of a handler, by an exception or by INT (R266, R218). -/
def EntersHandler (s t : State) : Prop := ∃ v, trapEntry s v s.nextAddr = .next t

theorem EntersHandler.isrDepth_eq (h : EntersHandler s t) : t.isrDepth = s.isrDepth + 1 := by
  obtain ⟨v, hv⟩ := h
  obtain ⟨handler, top, -, -, -, rfl⟩ := trapEntry_next.1 hv
  rfl

theorem EntersHandler.storesReturnAddress (h : EntersHandler s t) :
    ∃ top, toInt (s.reg .rsp) = some top ∧ InMem s (top - 1) ∧ StoresOnly s t (top - 1) (ofInt (s.pc + 2)) := by
  obtain ⟨v, hv⟩ := h
  obtain ⟨handler, top, -, htop, hb, rfl⟩ := trapEntry_next.1 hv
  exact ⟨top, htop, (inBounds_iff _ _).1 hb, setCell_cell_self s _ _, fun b hne => setCell_cell_ne s _ hne⟩

/-- Only the entry of a handler raises `isr_depth`. -/
theorem Effect.isrDepth_le (h : Effect i s t) (hn : ¬ EntersHandler s t) : t.isrDepth ≤ s.isrDepth := by
  cases h with
  | trap v ht => exact absurd ⟨v, ht⟩ hn
  | iret w a => exact Nat.sub_le _ _
  | result d v => exact (setRegNum_isrDepth s d v).le
  | _ => exact Nat.le_refl _

theorem entersHandler_iff (h : exec i s = .next t) : EntersHandler s t ↔ s.isrDepth < t.isrDepth := by
  constructor
  · intro he
    rw [he.isrDepth_eq]
    exact Nat.lt_succ_self _
  · intro hlt
    by_contra hn
    exact absurd ((exec_effect h).isrDepth_le hn) (Nat.not_le_of_gt hlt)

/-- An instruction that enters no handler has done what it computes. -/
theorem ok_of_settle {r : Act State} (h : settle s r = .next t) (hn : ¬ EntersHandler s t) : r = .ok t := by
  rcases settle_next h with hr | ⟨e, -, htrap⟩
  · exact hr
  · exact absurd ⟨e.vector, htrap⟩ hn

/-! ## The cell an instruction stores to (R167, R190, R203, R204) -/

theorem storesAt_of_storeReg {ty : AddrType} {addr src : RegNum}
    (hi : i = .strr addr src ∧ ty = .relative ∨ i = .stra addr src ∧ ty = .absolute) {a : Int} :
    StoresAt i s a ↔ ∃ d k, regOf addr = some d ∧ toInt (s.reg d) = some k ∧ a = addressOf ty s k := by
  rcases hi with ⟨rfl, rfl⟩ | ⟨rfl, rfl⟩ <;> simp [StoresAt]

theorem storesAt_of_pushes (hi : Pushes i) {a : Int} :
    StoresAt i s a ↔ ∃ top, toInt (s.reg .rsp) = some top ∧ a = top - 1 := by
  rcases hi with ⟨r, rfl⟩ | rfl | ⟨ty, r, rfl⟩ <;> simp [StoresAt]

theorem storesToMemory_of_storesAt {a : Int} (h : StoresAt i s a) : storesToMemory i := by
  rcases h with ⟨ty, addr, src, d, k, ⟨rfl, -⟩ | ⟨rfl, -⟩, -⟩ | ⟨hi, -⟩
  · exact .inl ⟨addr, src, .inl rfl⟩
  · exact .inl ⟨addr, src, .inr rfl⟩
  · exact .inr hi

/-- An instruction stores to one address at most. -/
theorem storesAt_unique {a b : Int} (ha : StoresAt i s a) (hb : StoresAt i s b) : a = b := by
  rcases ha with ⟨ty, addr, src, d, k, hi, hd, hk, rfl⟩ | ⟨hi, top, htop, rfl⟩
  · obtain ⟨e, l, he, hl, rfl⟩ := (storesAt_of_storeReg hi).1 hb
    obtain rfl : d = e := Option.some.inj (hd.symm.trans he)
    rw [Option.some.inj (hk.symm.trans hl)]
  · obtain ⟨top', htop', rfl⟩ := (storesAt_of_pushes hi).1 hb
    rw [Option.some.inj (htop.symm.trans htop')]

/-! ## Storing instructions (R54) -/

/-- The cell that `i` stores to exists, and every other cell is in `t` as in `s`. -/
def StoresOneCell (i : Instr) (s t : State) : Prop :=
  ∃ a, StoresAt i s a ∧ InMem s a ∧ ∀ b, b ≠ a.toNat → t.cell b = s.cell b

/-- STRR or STRA that enters no handler writes the Source to the cell its Destination addresses. -/
theorem storeReg_next {ty : AddrType} {addr src : RegNum} (h : storeReg ty addr src s = .next t)
    (hn : ¬ EntersHandler s t) :
    ∃ d r k, regOf addr = some d ∧ regOf src = some r ∧ toInt (s.reg d) = some k ∧
      s.inBounds (effective ty s k) = true ∧ t = (s.setCell (effective ty s k).toNat (s.reg r)).advance := by
  obtain ⟨d, hd, h⟩ := act_bind_ok (ok_of_settle h hn)
  obtain ⟨r, hr, h⟩ := act_bind_ok h
  obtain ⟨a, ha, h⟩ := act_bind_ok h
  obtain ⟨u, hu, h⟩ := act_bind_ok h
  obtain ⟨k, hk, rfl⟩ := target_ok.1 ha
  obtain ⟨hb, rfl⟩ := memWrite_ok.1 hu
  cases h
  exact ⟨d, r, k, opreg_ok.1 hd, opreg_ok.1 hr, hk, hb, rfl⟩

theorem storeReg_storesOneCell {ty : AddrType} {addr src : RegNum}
    (hi : i = .strr addr src ∧ ty = .relative ∨ i = .stra addr src ∧ ty = .absolute)
    (h : storeReg ty addr src s = .next t) (hn : ¬ EntersHandler s t) : StoresOneCell i s t := by
  obtain ⟨d, r, k, hd, -, hk, hb, rfl⟩ := storeReg_next h hn
  have haddr : effective ty s k = addressOf ty s k := by cases ty <;> rfl
  exact ⟨effective ty s k, (storesAt_of_storeReg hi).2 ⟨d, k, hd, hk, haddr⟩, (inBounds_iff _ _).1 hb,
    fun b hne => setCell_cell_ne s _ hne⟩

theorem push_storesOneCell {u : State} {w : W64} (hi : Pushes i) (h : push s w = .ok u) (pc : Int) :
    StoresOneCell i s (u.setPc pc) := by
  obtain ⟨top, htop, hb, rfl⟩ := push_ok.1 h
  exact ⟨top - 1, (storesAt_of_pushes hi).2 ⟨top, htop, rfl⟩, (inBounds_iff _ _).1 hb,
    fun b hne => setCell_cell_ne s _ hne⟩

theorem execPush_storesOneCell {src : RegNum} (h : execPush src s = .next t) (hn : ¬ EntersHandler s t) :
    StoresOneCell (.push src) s t := by
  obtain ⟨r, -, h⟩ := act_bind_ok (ok_of_settle h hn)
  obtain ⟨u, hu, h⟩ := act_bind_ok h
  cases h
  exact push_storesOneCell (.inl ⟨src, rfl⟩) hu (u.pc + 2)

theorem execPushf_storesOneCell (h : execPushf s = .next t) (hn : ¬ EntersHandler s t) :
    StoresOneCell .pushf s t := by
  obtain ⟨u, hu, h⟩ := act_bind_ok (ok_of_settle h hn)
  cases h
  exact push_storesOneCell (.inr (.inl rfl)) hu (u.pc + 2)

theorem execCall_storesOneCell {ty : AddrType} {tgt : RegNum} (h : execCall ty tgt s = .next t)
    (hn : ¬ EntersHandler s t) : StoresOneCell (.call ty tgt) s t := by
  obtain ⟨r, -, h⟩ := act_bind_ok (ok_of_settle h hn)
  obtain ⟨a, -, h⟩ := act_bind_ok h
  obtain ⟨u, hu, h⟩ := act_bind_ok h
  cases h
  exact push_storesOneCell (.inr (.inr ⟨ty, tgt, rfl⟩)) hu a

theorem exec_storesOneCell (hi : storesToMemory i) (h : exec i s = .next t) (hn : ¬ EntersHandler s t) :
    StoresOneCell i s t := by
  rcases hi with ⟨addr, src, rfl | rfl⟩ | ⟨r, rfl⟩ | rfl | ⟨ty, r, rfl⟩
  · exact storeReg_storesOneCell (.inl ⟨rfl, rfl⟩) h hn
  · exact storeReg_storesOneCell (.inr ⟨rfl, rfl⟩) h hn
  · exact execPush_storesOneCell h hn
  · exact execPushf_storesOneCell h hn
  · exact execCall_storesOneCell h hn

/-! ## Every other instruction -/

theorem setRegNum_cell (s : State) (d : Reg) (v : NumResult) (b : Nat) :
    (s.setRegNum d v).cell b = s.cell b := by
  cases v <;> rfl

theorem Effect.cell_eq (h : Effect i s t) (hi : ¬ storesToMemory i) (hn : ¬ EntersHandler s t) (b : Nat) :
    t.cell b = s.cell b := by
  cases h with
  | store a w ha => exact absurd (storesToMemory_of_storesAt ha) hi
  | push a w pc hs ha => exact absurd (storesToMemory_of_storesAt ha) hi
  | trap v ht => exact absurd ⟨v, ht⟩ hn
  | result d v => exact setRegNum_cell s d v b
  | _ => rfl

/-- Settles O19: the entry of a handler stores the return address, a storing instruction that enters none has
its one cell, and no other effect writes memory. -/
theorem atMostOneCellChanges : Obligations.AtMostOneCellChanges := by
  intro i s t h
  refine ⟨fun hlt => ((entersHandler_iff h).2 hlt).storesReturnAddress, fun hle => ?_⟩
  have hn : ¬ EntersHandler s t := fun he => Nat.not_lt_of_ge hle ((entersHandler_iff h).1 he)
  refine ⟨fun a ha => ?_, fun hi => ?_, fun hi => (exec_effect h).cell_eq hi hn⟩
  · obtain ⟨b, hb, hmem, hframe⟩ := exec_storesOneCell (storesToMemory_of_storesAt ha) h hn
    rw [storesAt_unique ha hb]
    exact ⟨hmem, hframe⟩
  · obtain ⟨a, ha, -⟩ := exec_storesOneCell hi h hn
    exact ⟨a, ha⟩

/-! ## A store, then a load (R61) -/

/-- LOAD from a cell whose word is known puts that word in its register (R202). -/
theorem execLoad_of_cell {ty : AddrType} {dst : RegNum} {d : Reg} {k : Int} {w : W64} (hd : regOf dst = some d)
    (hk : toInt (s.reg d) = some k) (hb : s.inBounds (effective ty s k) = true)
    (hw : s.cell (effective ty s k).toNat = some w) :
    execLoad ty dst s = .next (s.setReg d w).advance := by
  have hread : memRead s (effective ty s k) = .ok w := memRead_ok.2 ⟨hb, hw⟩
  simp [execLoad, opreg_ok.2 hd, target_ok.2 ⟨k, hk, rfl⟩, hread]

/-- Settles O58: the store changes no register, so the load reads the cell it wrote. -/
theorem loadReturnsTheLastStore : Obligations.LoadReturnsTheLastStore := by
  intro s addr src d r t hd hr h hdepth
  have hn : ¬ EntersHandler s t := fun he => by
    have := he.isrDepth_eq
    omega
  obtain ⟨d', r', k, hd', hr', hk, hb, rfl⟩ := storeReg_next h hn
  obtain rfl : d' = d := Option.some.inj (hd'.symm.trans hd)
  obtain rfl : r' = r := Option.some.inj (hr'.symm.trans hr)
  exact ⟨_, execLoad_of_cell (ty := .absolute) hd hk hb (setCell_cell_self s _ _), setReg_reg_self _ _ _⟩

end Sys2Proof.Machine
end

section
/-! PROOFS. The encoding (spec/30_encoding.md R82 to R94): each operand is read back from the field it is written in,
hence each instruction by its format; and the bits that no format uses. -/

namespace Sys2Proof.Machine

open Sys2Proof.Spec

/-! ## Operands through their encoding (R86 to R88, R92) -/

theorem wellFormed_some_iff (n : Int) : RegNum.wellFormed (some n) = true ↔ n ∈ validRegNums := List.elem_iff

/-- The numbers a well-formed Register parameter holds are small and not negative. -/
theorem eq_some_of_wellFormed {r : RegNum} (h : RegNum.wellFormed r = true) :
    ∃ n : Nat, r = some (n : Int) ∧ n ≤ 9 := by
  rcases r with _ | n
  · cases h
  · have hmem := (wellFormed_some_iff n).1 h
    simp only [validRegNums, List.mem_cons, List.not_mem_nil, or_false] at hmem
    exact ⟨n.toNat, by congr 1; omega, by omega⟩

theorem toNat_firstOfReg {n : Nat} (h : n ≤ 9) : (firstOfReg (some (n : Int))).toNat = n := by
  rw [firstOfReg, Option.getD_some, BitVec.ofInt_natCast, BitVec.toNat_ofNat]
  omega

theorem regInFirst_firstOfReg {r : RegNum} (h : RegNum.wellFormed r = true) : regInFirst (firstOfReg r) = r := by
  obtain ⟨n, rfl, hn⟩ := eq_some_of_wellFormed h
  rw [regInFirst, toNat_firstOfReg hn]

theorem regInSecond_secondOfReg {r : RegNum} (h : RegNum.wellFormed r = true) :
    regInSecond (secondOfReg r) = r := by
  obtain ⟨n, rfl, hn⟩ := eq_some_of_wellFormed h
  refine toInt_ofInt ?_
  rw [Option.getD_some, Nat.abs_cast]
  omega

@[simp] theorem typeInFirst_firstOfType (ty : AddrType) : typeInFirst (firstOfType ty) = ty := by
  cases ty <;> rfl

/-- No register number is written as the code of RET without operand. -/
theorem firstOfReg_ne_retNoArgFirst {r : RegNum} (h : RegNum.wellFormed r = true) :
    firstOfReg r ≠ retNoArgFirst := by
  obtain ⟨n, rfl, hn⟩ := eq_some_of_wellFormed h
  intro heq
  have hlarge : n = retNoArgFirst.toNat := by rw [← heq, toNat_firstOfReg hn]
  change n = 65535 at hlarge
  omega

theorem retInFirst_firstOfRet {c : RetCount} (h : RetCount.wellFormed c = true) :
    retInFirst (firstOfRet c) = c := by
  cases c with
  | noOperand => rfl
  | inReg r =>
    change retInFirst (firstOfReg r) = .inReg r
    rw [retInFirst, if_neg (firstOfReg_ne_retNoArgFirst h), regInFirst_firstOfReg h]

/-! ## Instructions through their encoding, by format (R84) -/

section formats

variable {a b : RegNum}

theorem operands_formatR {mk : RegNum → Instr} (h : RegNum.wellFormed a = true) :
    mk (regInFirst (firstOfReg a)) = mk a := by
  rw [regInFirst_firstOfReg h]

theorem operands_formatRR {mk : RegNum → RegNum → Instr}
    (h : (RegNum.wellFormed a && RegNum.wellFormed b) = true) :
    mk (regInFirst (firstOfReg a)) (regInSecond (secondOfReg b)) = mk a b := by
  obtain ⟨ha, hb⟩ := Bool.and_eq_true_iff.1 h
  rw [regInFirst_firstOfReg ha, regInSecond_secondOfReg hb]

theorem operands_formatTR {mk : AddrType → RegNum → Instr} {ty : AddrType} (h : RegNum.wellFormed b = true) :
    mk (typeInFirst (firstOfType ty)) (regInSecond (secondOfReg b)) = mk ty b := by
  rw [typeInFirst_firstOfType, regInSecond_secondOfReg h]

theorem operands_formatVR {mk : BitVec 16 → RegNum → Instr} {v : BitVec 16}
    (h : (vectorWellFormed v && RegNum.wellFormed b) = true) :
    mk v (regInSecond (secondOfReg b)) = mk v b := by
  rw [regInSecond_secondOfReg (Bool.and_eq_true_iff.1 h).2]

end formats

/-- The opcode map reads the fields of a well-formed instruction as that instruction (R84, R94). -/
theorem decodeFields_fieldsOf {i : Instr} (h : i.wellFormed = true) :
    decodeFields (fieldsOf i).op.toNat (fieldsOf i).first (fieldsOf i).second = some i := by
  cases i with
  | add | sub | mul | div | idiv | mod | exp | max | min | cmp | and | or | xor | shl | shr | test | mov | swp
  | strr | stra | inp | outp | inr | outr => exact congrArg some (operands_formatRR h)
  | expe | log | logn | sqrt | flr | ceil | abs | sin | cos | tan | asin | acos | atan | rand | inc | dec | not
  | push | pop | rip | int => exact congrArg some (operands_formatR h)
  | call | jmp | jp | jnp | jz | jnz | js | jns | jl | jle | jg | jge | loop | load =>
    exact congrArg some (operands_formatTR h)
  | setisrr | setisra => exact congrArg some (operands_formatVR h)
  | ldi dst imm => exact congrArg some (operands_formatR (mk := (Instr.ldi · imm)) h)
  | ret count => exact congrArg (fun c => some (Instr.ret c)) (retInFirst_firstOfRet h)
  | hlt | iret | pushf | popf | nop => rfl

theorem decode_encode {i : Instr} (h : i.wellFormed = true) : decode (encode i) = .ok i := by
  simp only [decode, encode, opcodeField_assemble, firstField_assemble, secondField_assemble,
    decodeFields_fieldsOf h]

/-- Settles O1: the fields of the word are those that were assembled, and the opcode map reads them back. -/
theorem decodeEncodeRoundTrip : Obligations.DecodeEncodeRoundTrip := fun _ => decode_encode

/-- A word that a well-formed instruction encodes to decodes to it from its two cells (R53). -/
theorem decode_cells_of_encode {i : Instr} {w : W128} (hwf : i.wellFormed = true) (henc : encode i = w) :
    encode i = w ∧ decode (ofCells (lowCell w) (highCell w)) = .ok i := by
  rw [ofCells_cells, ← henc]
  exact ⟨rfl, decode_encode hwf⟩

/-- Settles O4: each of the four encodes to its word, which by the round trip decodes. -/
theorem workedEncodings : Obligations.WorkedEncodings := by
  intro e he
  fin_cases he
  all_goals exact decode_cells_of_encode (by decide) (by decide)

/-! ## Unused fields and reserved bits (R84, R93) -/

/-- The opcodes of format `N`, which uses neither value (R84). -/
def formatN : List Nat := [35, 36, 50, 52, 63]

/-- The opcodes of formats `R` and `O`, which use the First value alone (R84). -/
def formatRO : List Nat :=
  [7, 8, 9, 10, 13, 14, 15, 16, 17, 18, 19, 20, 21, 22, 23, 24, 29, 34, 49, 51, 59, 62]

theorem decodeFields_of_formatN {op : Nat} (h : op ∈ formatN) (first first' : BitVec 16) (second second' : W64) :
    decodeFields op first second = decodeFields op first' second' := by
  unfold formatN at h
  fin_cases h <;> rfl

theorem decodeFields_of_formatRO {op : Nat} (h : op ∈ formatRO) (first : BitVec 16) (second second' : W64) :
    decodeFields op first second = decodeFields op first second' := by
  unfold formatRO at h
  fin_cases h <;> rfl

/-- Words with the same opcode decode alike when the opcode map reads their values alike. -/
theorem decode_congr {w v : W128} (hop : opcodeField w = opcodeField v)
    (h : decodeFields (opcodeField w).toNat (firstField w) (secondField w) =
      decodeFields (opcodeField w).toNat (firstField v) (secondField v)) : decode w = decode v := by
  rw [decode, decode, h, hop]

/-- The reserved bits of an assembled word are 0. -/
theorem reserved_assemble (op : BitVec 8) (first : BitVec 16) (second : W64) :
    (assemble op first second).extractLsb' 24 40 = 0#40 := by
  apply BitVec.eq_of_getLsbD_eq
  intro i hi
  simp only [assemble, BitVec.getLsbD_extractLsb', BitVec.getLsbD_append]
  have hlow : 24 + i < 64 := by omega
  simp [hlow]

theorem first_fieldsOf_of_formatN {i : Instr} (h : (fieldsOf i).op.toNat ∈ formatN) : (fieldsOf i).first = 0#16 := by
  cases i with
  | hlt | iret | pushf | popf | nop => rfl
  | _ => simp [fieldsOf, formatN] at h

theorem second_fieldsOf_of_formats {i : Instr} (h : (fieldsOf i).op.toNat ∈ formatN ++ formatRO) :
    (fieldsOf i).second = 0#64 := by
  cases i with
  | hlt | iret | pushf | popf | nop => rfl
  | expe | log | logn | sqrt | flr | ceil | abs | sin | cos | tan | asin | acos | atan | rand | inc | dec | not
  | push | pop | rip | int | ret => rfl
  | _ => simp [fieldsOf, formatN, formatRO] at h

/-- Settles O2: words decode alike when the opcode map reads their values alike, and the fields written are
those of `fieldsOf`. -/
theorem reservedAndUnusedBitsIgnored : Obligations.ReservedAndUnusedBitsIgnored := by
  refine ⟨fun w v hop hfirst hsecond => ?_, fun w v hop hN => ?_, fun w v hop hfirst hRO => ?_, fun i => ?_⟩
  · exact decode_congr hop (by rw [hfirst, hsecond])
  · exact decode_congr hop (decodeFields_of_formatN hN _ _ _ _)
  · exact decode_congr hop (hfirst ▸ decodeFields_of_formatRO hRO _ _ _)
  · rw [encode, opcodeField_assemble]
    refine ⟨reserved_assemble _ _ _, fun hN => ?_, fun hNRO => ?_⟩
    · exact (firstField_assemble _ _ _).trans (first_fieldsOf_of_formatN hN)
    · exact (secondField_assemble _ _ _).trans (second_fieldsOf_of_formats hNRO)

end Sys2Proof.Machine
end

section
/-! PROOFS. The Register parameters (spec/30_encoding.md R86, R87, R90): a non-zero number is read from one word only,
so R87's table lists every word that names a register; and every instruction checks its parameters first. -/

namespace Sys2Proof.Machine

open Sys2Proof.Spec

/-! ## One word for each number (R8, R9) -/

/-- The order of the exponent fields is that of the sizes. -/
theorem magnitude_lt_of_expField_lt {v w : W64} (h : expField v < expField w) : magnitude v < magnitude w := by
  have hf := fracField_lt v
  rw [magnitude_of_normal (w := w) (by omega)]
  by_cases he : expField v = 0
  · rw [magnitude_of_subnormal he]
    exact lt_of_lt_of_le (by omega) (Nat.le_mul_of_pos_right _ (by positivity))
  · rw [magnitude_of_normal he]
    calc (2 ^ 52 + fracField v) * 2 ^ (expField v - 1)
        < 2 ^ 53 * 2 ^ (expField v - 1) := Nat.mul_lt_mul_of_pos_right (by omega) (by positivity)
      _ = 2 ^ 52 * 2 ^ (expField v - 1 + 1) := by ring
      _ ≤ (2 ^ 52 + fracField w) * 2 ^ (expField w - 1) :=
        Nat.mul_le_mul (by omega) (Nat.pow_le_pow_right (by norm_num) (by omega))

theorem fields_eq_of_magnitude_eq {v w : W64} (h : magnitude v = magnitude w) :
    expField v = expField w ∧ fracField v = fracField w := by
  have he : expField v = expField w := by
    rcases Nat.lt_trichotomy (expField v) (expField w) with hlt | heq | hgt
    · exact absurd h (magnitude_lt_of_expField_lt hlt).ne
    · exact heq
    · exact absurd h (magnitude_lt_of_expField_lt hgt).ne'
  refine ⟨he, ?_⟩
  by_cases hz : expField w = 0
  · rwa [magnitude_of_subnormal hz, magnitude_of_subnormal (he.trans hz)] at h
  · rw [magnitude_of_normal hz, magnitude_of_normal (he ▸ hz), he] at h
    exact Nat.add_left_cancel (Nat.eq_of_mul_eq_mul_right (by positivity) h)

/-- A word is its sign and its two fields. -/
theorem eq_of_fields_eq {v w : W64} (hs : signBit v = signBit w) (he : expField v = expField w)
    (hf : fracField v = fracField w) : v = w := by
  have hexp : v.extractLsb' 52 11 = w.extractLsb' 52 11 := BitVec.eq_of_toNat_eq he
  have hfrac : v.extractLsb' 0 52 = w.extractLsb' 0 52 := BitVec.eq_of_toNat_eq hf
  apply BitVec.eq_of_getLsbD_eq
  intro i hi
  rcases (by omega : i < 52 ∨ 52 ≤ i ∧ i < 63 ∨ i = 63) with hlow | ⟨hge, hlt⟩ | rfl
  · simpa [hlow] using congrArg (BitVec.getLsbD · i) hfrac
  · obtain ⟨j, rfl⟩ := Nat.exists_eq_add_of_le hge
    have hj : j < 11 := by omega
    simpa [hj] using congrArg (BitVec.getLsbD · j) hexp
  · exact hs

/-- Words with the same sign that stand for the same integer are the same. -/
theorem eq_of_toInt_eq {v w : W64} {n : Int} (hs : signBit v = signBit w) (hv : toInt v = some n)
    (hw : toInt w = some n) : v = w := by
  have hscaled : scaledNum v = scaledNum w := by
    rw [← numQ_eq_numQ_iff, ((toInt_eq_some_iff v n).1 hv).2, ((toInt_eq_some_iff w n).1 hw).2]
  have hm : magnitude v = magnitude w := by
    rw [← natAbs_signedInt (signBit v) (magnitude v), ← natAbs_signedInt (signBit w) (magnitude w)]
    exact congrArg Int.natAbs hscaled
  obtain ⟨he, hf⟩ := fields_eq_of_magnitude_eq hm
  exact eq_of_fields_eq hs he hf

/-- A word that stands for a positive integer has no sign. -/
theorem signBit_of_toInt_pos {w : W64} {n : Int} (hn : 0 < n) (h : toInt w = some n) : signBit w = false := by
  have hnum : numQ w = n := ((toInt_eq_some_iff w n).1 h).2
  have hpos : 0 < scaledNum w := by
    rw [(numQ_eq_intCast_iff w n).1 hnum]
    exact mul_pos hn (Int.natCast_pos.2 scale_pos)
  cases hs : signBit w with
  | false => rfl
  | true =>
    have hneg : scaledNum w = -magnitude w := by rw [scaledNum, hs]; rfl
    omega

theorem toInt_eq_zero_iff (w : W64) : toInt w = some 0 ↔ w = posZero ∨ w = negZero := by
  constructor
  · intro h
    cases hs : signBit w with
    | false => exact .inl (eq_of_toInt_eq hs h (toInt_of_isZero (w := posZero) rfl))
    | true => exact .inr (eq_of_toInt_eq hs h (toInt_of_isZero (w := negZero) rfl))
  · rintro (rfl | rfl) <;> exact toInt_of_isZero rfl

theorem toInt_eq_pos_iff {v : W64} {n : Int} (hn : 0 < n) (hv : toInt v = some n) (w : W64) :
    toInt w = some n ↔ w = v := by
  constructor
  · intro hw
    exact eq_of_toInt_eq ((signBit_of_toInt_pos hn hw).trans (signBit_of_toInt_pos hn hv).symm) hw hv
  · rintro rfl
    exact hv

/-! ## Which values name a register (R86, R87) -/

theorem regInFirst_names_iff (first : BitVec 16) :
    (regOf (regInFirst first)).isSome = true ↔ first.toNat ∈ [0, 1, 2, 3, 4, 5, 8, 9] := by
  rw [regOf_isSome, regInFirst, wellFormed_some_iff]
  simp only [validRegNums, List.mem_cons, List.not_mem_nil, or_false]
  omega

/-- The table of R87 as a list by register number. -/
theorem regOf_some (n : Nat) :
    regOf (some n) = ([some Reg.rax, some .rbx, some .rcx, some .rdx, some .rpx, some .rvx, none, none,
      some .rsp, some .rbp] : List (Option Reg)).getD n none := by
  match n with
  | 0 | 1 | 2 | 3 | 4 | 5 | 6 | 7 | 8 | 9 => rfl
  | n + 10 => rfl

/-- The Second values of R87's table, minus zero after plus zero. -/
def regPatterns : List W64 :=
  [0x0000000000000000#64, 0x8000000000000000#64, 0x3FF0000000000000#64, 0x4000000000000000#64,
    0x4008000000000000#64, 0x4010000000000000#64, 0x4014000000000000#64, 0x4020000000000000#64,
    0x4022000000000000#64]

/-- The register numbers of R87's table, in the order of `regPatterns`. -/
def regPatternNums : List RegNum := [some 0, some 0, some 1, some 2, some 3, some 4, some 5, some 8, some 9]

theorem map_regInSecond_regPatterns : regPatterns.map regInSecond = regPatternNums := by decide

/-- R87's table lists the valid register numbers (R23). -/
theorem mem_regPatternNums_iff (r : RegNum) : r ∈ regPatternNums ↔ RegNum.wellFormed r = true := by
  cases r with
  | none => decide
  | some n => simp [regPatternNums, wellFormed_some_iff, validRegNums]

theorem regInSecond_mem_of_mem_regPatterns {w : W64} (h : w ∈ regPatterns) : regInSecond w ∈ regPatternNums := by
  rw [← map_regInSecond_regPatterns]
  exact List.mem_map_of_mem h

/-- A number of R87's table is read from no word outside the table: 0 from the two zeros alone, and each
other one from one word. -/
theorem mem_regPatterns_of_regInSecond_mem {w : W64} (h : regInSecond w ∈ regPatternNums) : w ∈ regPatterns := by
  obtain ⟨v, hmem, hv⟩ : ∃ v ∈ regPatterns, regInSecond v = regInSecond w := by
    rwa [← map_regInSecond_regPatterns, List.mem_map] at h
  obtain ⟨n, hn, -⟩ := eq_some_of_wellFormed ((mem_regPatternNums_iff _).1 h)
  rcases n.eq_zero_or_pos with rfl | hpos
  · rcases (toInt_eq_zero_iff w).1 hn with rfl | rfl <;> decide
  · rwa [(toInt_eq_pos_iff (Int.natCast_pos.2 hpos) (hv.trans hn) w).1 hn]

theorem regInSecond_names_iff (second : W64) :
    (regOf (regInSecond second)).isSome = true ↔ second ∈ regPatterns := by
  rw [regOf_isSome, ← mem_regPatternNums_iff]
  exact ⟨mem_regPatterns_of_regInSecond_mem, regInSecond_mem_of_mem_regPatterns⟩

/-! ## The operand check of every instruction (R90, R254) -/

section operandCheck

variable {s : State} {p q : RegNum}

theorem opreg_of_none (h : regOf p = none) : opreg p = .error (.raise .invalidRegister) := by
  rw [opreg, h]

/-- An instruction that begins with the check of its one Register parameter. -/
theorem raises_of_checks_one {α : Type} {f : Reg → Act α} {k : α → Out} (h : ∃ r ∈ [p], regOf r = none) :
    settleWith s (opreg p >>= f) k = raises s 3 := by
  obtain ⟨r, hmem, hr⟩ := h
  rw [← List.mem_singleton.1 hmem, opreg_of_none hr]
  rfl

/-- An instruction that begins with the checks of its two Register parameters. -/
theorem raises_of_checks_two {α : Type} {f : Reg → Reg → Act α} {k : α → Out} (h : ∃ r ∈ [p, q], regOf r = none) :
    settleWith s (opreg p >>= fun d => opreg q >>= f d) k = raises s 3 := by
  rcases opreg_cases p with ⟨d, hd, hok⟩ | ⟨-, herr⟩
  · have hq : ∃ r ∈ [q], regOf r = none := by simpa [hd] using h
    rw [hok]
    exact raises_of_checks_one hq
  · rw [herr]
    rfl

/-- RET checks the register of its count, when it has one (R92, R168). -/
theorem execRet_raises_of_invalid (h : regOf p = none) : execRet (.inReg p) s = raises s 3 := by
  rw [execRet, retCount, opreg_of_none h]
  rfl

/-- Every instruction but RET begins with the checks of its Register parameters (R90). -/
theorem exec_raises_of_invalid {i : Instr} (h : ∃ r ∈ regParams i, regOf r = none) : exec i s = raises s 3 := by
  cases i with
  | add | sub | mul | div | idiv | mod | exp | max | min | cmp | and | or | xor | shl | shr | test | mov | swp
  | strr | stra | inp | outp | inr | outr => exact raises_of_checks_two h
  | expe | log | logn | sqrt | flr | ceil | abs | sin | cos | tan | asin | acos | atan | rand | inc | dec | not
  | push | pop | ldi | rip | call | jmp | jp | jnp | jz | jnz | js | jns | jl | jle | jg | jge | loop | load
  | setisrr | setisra | int => exact raises_of_checks_one h
  | ret c =>
    cases c with
    | noOperand => obtain ⟨r, hmem, -⟩ := h; cases hmem
    | inReg n =>
      obtain ⟨r, hmem, hr⟩ := h
      obtain rfl := List.mem_singleton.1 hmem
      exact execRet_raises_of_invalid hr
  | hlt | iret | pushf | popf | nop => obtain ⟨r, hmem, -⟩ := h; cases hmem

end operandCheck

theorem regParams_eq_nil_iff (i : Instr) :
    regParams i = [] ↔ i ∈ [Instr.hlt, .iret, .pushf, .popf, .nop, .ret .noOperand] := by
  cases i with
  | ret c => cases c <;> simp [regParams]
  | _ => simp [regParams]

/-- Settles O3: the two tables, the operand check at the head of each instruction, and which have none. -/
theorem invalidRegisterComesFirst : Obligations.InvalidRegisterComesFirst :=
  ⟨regInFirst_names_iff, regOf_some, regInSecond_names_iff, map_regInSecond_regPatterns, rfl,
    fun _ _ => exec_raises_of_invalid, regParams_eq_nil_iff⟩

end Sys2Proof.Machine
end

section
/-! PROOFS. The Math instructions (spec/40_math.md R110, R117 to R143, spec/41_bitwise.md R157): a statement about
each template of Machine/Math.lean, of which an instruction is an opcode and a function of `N`. -/

namespace Sys2Proof.Machine

open Sys2Proof.Spec

/-! ## The opcode, and the registers that are checked -/

/-- The opcode map decides what a word decodes to (R82, R94). -/
theorem encoded_of_decodeFields {op : Nat} {f : BitVec 16 → W64 → Instr}
    (h : ∀ first second, decodeFields op first second = some (f first second)) : Encoded op f := by
  rintro w rfl
  have hw := h (firstField w) (secondField w)
  rw [← opcodeField] at hw
  simp only [decode, hw]
  rfl

theorem exists_mem_pair_regOf_none {p q : RegNum} (h : regOf p = none ∨ regOf q = none) :
    ∃ r ∈ [p, q], regOf r = none := by
  simpa using h

theorem exists_mem_singleton_regOf_none {p : RegNum} (h : regOf p = none) : ∃ r ∈ [p], regOf r = none :=
  ⟨p, .head _, h⟩

/-! ## The templates on valid registers (R110, R117, R143) -/

section templates

variable {s : State} {x y : RegNum} {d r : Reg}

theorem mathRR_ok (f : W64 → W64 → NumResult) (hd : regOf x = some d) (hr : regOf y = some r) :
    mathRR f x y s = .next (s.setRegNum d (f (s.reg d) (s.reg r))).advance := by
  simp [mathRR, opreg_ok.2 hd, opreg_ok.2 hr]

theorem mathR_ok (f : W64 → NumResult) (hd : regOf x = some d) :
    mathR f x s = .next (s.setRegNum d (f (s.reg d))).advance := by
  simp [mathR, opreg_ok.2 hd]

theorem divRR_of_isZero (f : W64 → W64 → NumResult) (hd : regOf x = some d) (hr : regOf y = some r)
    (hz : isZero (s.reg r) = true) : divRR f x y s = raises s 0 := by
  simp only [divRR, opreg_ok.2 hd, opreg_ok.2 hr, act_ok_bind, hz, if_true]
  rfl

theorem divRR_ok (f : W64 → W64 → NumResult) (hd : regOf x = some d) (hr : regOf y = some r)
    (hz : isZero (s.reg r) = false) :
    divRR f x y s = .next (s.setRegNum d (f (s.reg d) (s.reg r))).advance := by
  simp [divRR, opreg_ok.2 hd, opreg_ok.2 hr, hz]

theorem flagsRR_ok (f : W64 → W64 → NumResult) (hd : regOf x = some d) (hr : regOf y = some r) :
    flagsRR f x y s = .next (s.setFlags (flagsOfNum (f (s.reg d) (s.reg r)))).advance := by
  simp [flagsRR, opreg_ok.2 hd, opreg_ok.2 hr]

end templates

/-- A result in a register and the sequential `pc`: the word, or some NaN (R116). -/
theorem writesResult_setRegNum (s : State) (d : Reg) (v : NumResult) :
    WritesResult s (s.setRegNum d v).advance d v := by
  cases v with
  | word w =>
    have hd : ((s.setRegNum d (.word w)).advance).reg d = w := setReg_reg_self s d w
    exact ⟨by rw [hd]; rfl, hd, rfl⟩
  | nan =>
    have hd : ((s.setRegNum d .nan).advance).reg d = nanWord (Config.freeWord s.draws) := setReg_reg_self s d _
    refine ⟨by rw [hd]; rfl, ?_⟩
    show isNaN _ = true
    rw [hd]
    exact isNaN_nanWord _

/-- The flags of a result are those of a word that is the result (R28, R143). -/
theorem exists_word_flagsOfNum (v : NumResult) :
    ∃ r, (v = .word r ∨ v = .nan ∧ isNaN r = true) ∧ flagsOfNum v = flagsOf r := by
  cases v with
  | word w => exact ⟨w, .inl rfl, rfl⟩
  | nan =>
    have hnan := isNaN_nanWord posZero
    exact ⟨_, .inr ⟨rfl, hnan⟩, (flagsOf_of_isNaN hnan).symm⟩

/-! ## An instruction of a template -/

section instructions

variable {op : Nat} {f : W64 → W64 → NumResult}

theorem mathRR_of_exec {mk : RegNum → RegNum → Instr}
    (hdec : ∀ first second, decodeFields op first second = some (mk (regInFirst first) (regInSecond second)))
    (hexec : ∀ x y s, exec (mk x y) s = mathRR f x y s) : MathRR op mk f := by
  refine ⟨encoded_of_decodeFields hdec, fun s x y h => ?_, fun s x y d r hd hr => ?_⟩
  · rw [hexec]
    exact raises_of_checks_two (exists_mem_pair_regOf_none h)
  · exact ⟨_, (hexec x y s).trans (mathRR_ok f hd hr), writesResult_setRegNum s d _⟩

theorem mathR_of_exec {mk : RegNum → Instr} {f : W64 → NumResult}
    (hdec : ∀ first second, decodeFields op first second = some (mk (regInFirst first)))
    (hexec : ∀ x s, exec (mk x) s = mathR f x s) : MathR op mk f := by
  refine ⟨encoded_of_decodeFields hdec, fun s x h => ?_, fun s x d hd => ?_⟩
  · rw [hexec]
    exact raises_of_checks_one (exists_mem_singleton_regOf_none h)
  · exact ⟨_, (hexec x s).trans (mathR_ok f hd), writesResult_setRegNum s d _⟩

theorem division_of_exec {mk : RegNum → RegNum → Instr}
    (hdec : ∀ first second, decodeFields op first second = some (mk (regInFirst first) (regInSecond second)))
    (hexec : ∀ x y s, exec (mk x y) s = divRR f x y s) : Division op mk f := by
  refine ⟨encoded_of_decodeFields hdec, fun s x y h => ?_, fun s x y d r hd hr => ⟨fun hz => ?_, fun hz => ?_⟩⟩
  · rw [hexec]
    exact raises_of_checks_two (exists_mem_pair_regOf_none h)
  · exact (hexec x y s).trans (divRR_of_isZero f hd hr hz)
  · exact ⟨_, (hexec x y s).trans (divRR_ok f hd hr hz), writesResult_setRegNum s d _⟩

theorem comparesBy_of_exec {mk : RegNum → RegNum → Instr}
    (hdec : ∀ first second, decodeFields op first second = some (mk (regInFirst first) (regInSecond second)))
    (hexec : ∀ x y s, exec (mk x y) s = flagsRR f x y s) : ComparesBy op mk f := by
  refine ⟨encoded_of_decodeFields hdec, fun s x y h => ?_, fun s x y a b ha hb => ?_⟩
  · rw [hexec]
    exact raises_of_checks_two (exists_mem_pair_regOf_none h)
  · obtain ⟨r, hr, hflags⟩ := exists_word_flagsOfNum (f (s.reg a) (s.reg b))
    exact ⟨_, (hexec x y s).trans (flagsRR_ok f ha hb), rfl, packFlags_reserved _, r, hr,
      (setFlags_flags s _).trans hflags⟩

end instructions

/-- Settles O32: the six are of template `RR`. -/
theorem twoRegisterMath : Obligations.TwoRegisterMath := by
  refine ⟨?_, ?_, ?_, ?_, ?_, ?_⟩
  all_goals exact mathRR_of_exec (fun _ _ => rfl) (fun _ _ _ => rfl)

/-- Settles O33: the six are of template `R`. -/
theorem oneRegisterMath : Obligations.OneRegisterMath := by
  refine ⟨?_, ?_, ?_, ?_, ?_, ?_⟩
  all_goals exact mathR_of_exec (fun _ _ => rfl) (fun _ _ => rfl)

/-- Settles O34: the nine are of template `R`, whose function sees the operand alone. -/
theorem openFunctionsComplete : Obligations.OpenFunctionsComplete := by
  refine ⟨?_, ?_, ?_, ?_, ?_, ?_, ?_, ?_, ?_⟩
  all_goals exact mathR_of_exec (fun _ _ => rfl) (fun _ _ => rfl)

/-- Settles O36: the three are of the template that checks the Source for zero. -/
theorem divisionInstructions : Obligations.DivisionInstructions := by
  refine ⟨?_, ?_, ?_⟩
  all_goals exact division_of_exec (fun _ _ => rfl) (fun _ _ _ => rfl)

/-- Settles O37: CMP and TEST are of the template of the flags, with the operands in either order. -/
theorem compareAndTest : Obligations.CompareAndTest :=
  ⟨comparesBy_of_exec (fun _ _ => rfl) (fun _ _ _ => rfl), comparesBy_of_exec (fun _ _ => rfl) (fun _ _ _ => rfl)⟩

end Sys2Proof.Machine
end

section
/-! PROOFS. The order of words, infinities included, and the integers next to a word's number: max, min, floor, ceil
and abs (spec/40_math.md R113), and RAND's set (R115, R140). -/

namespace Sys2Proof.Machine

open Sys2Proof.Spec

/-! ## Kinds of words (R8) -/

theorem isInf_of_not_isFinite {w : W64} (hf : isFinite w = false) (hn : isNaN w = false) : isInf w = true := by
  simp only [isFinite, bne_eq_false_iff_eq] at hf
  simpa [isNaN, isInf, hf] using hn

theorem isFinite_of_isInf {w : W64} (h : isInf w = true) : isFinite w = false := by
  simp [isFinite, ((isInf_iff w).1 h).1]

theorem isNaN_of_isInf {w : W64} (h : isInf w = true) : isNaN w = false := by
  simp [isNaN, ((isInf_iff w).1 h).2]

theorem isFinite_of_isZero {w : W64} (h : isZero w = true) : isFinite w = true := by
  rw [isFinite_iff, ((isZero_iff w).1 h).1]
  norm_num

/-- An infinity reads as an integer of larger size than every finite word. -/
theorem magnitude_lt_of_isInf {v w : W64} (hv : isFinite v = true) (hw : isInf w = true) :
    magnitude v < magnitude w := by
  refine magnitude_lt_of_expField_lt ?_
  rw [((isInf_iff w).1 hw).1]
  exact (isFinite_iff v).1 hv

theorem magnitude_eq_of_isInf {v w : W64} (hv : isInf v = true) (hw : isInf w = true) :
    magnitude v = magnitude w := by
  obtain ⟨hve, hvf⟩ := (isInf_iff v).1 hv
  obtain ⟨hwe, hwf⟩ := (isInf_iff w).1 hw
  rw [magnitude, magnitude, hve, hvf, hwe, hwf]

theorem natAbs_scaledNum (w : W64) : (scaledNum w).natAbs = magnitude w := natAbs_signedInt _ _

theorem signBit_of_scaledNum_pos {w : W64} (h : 0 < scaledNum w) : signBit w = false := by
  by_contra hs
  rw [Bool.not_eq_false] at hs
  rw [scaledNum, signedInt, if_pos hs] at h
  omega

/-! ## The order (R113) -/

/-- Against a word of larger size, its sign decides. -/
theorem scaledNum_lt_iff_right {v w : W64} (h : magnitude v < magnitude w) :
    scaledNum v < scaledNum w ↔ signBit w = false := by
  rw [scaledNum, scaledNum, signedInt, signedInt]
  cases signBit w with
  | false => simp; split <;> omega
  | true => simp; split <;> omega

theorem scaledNum_lt_iff_left {v w : W64} (h : magnitude w < magnitude v) :
    scaledNum v < scaledNum w ↔ signBit v = true := by
  rw [scaledNum, scaledNum, signedInt, signedInt]
  cases signBit v with
  | false => simp; split <;> omega
  | true => simp; split <;> omega

/-- Of two infinities only the negative is below the positive. -/
theorem scaledNum_lt_iff_of_isInf {v w : W64} (hv : isInf v = true) (hw : isInf w = true) :
    scaledNum v < scaledNum w ↔ signBit v = true ∧ signBit w = false := by
  have hpos := magnitude_lt_of_isInf (v := posZero) rfl hw
  have hsides : -(magnitude w : Int) < magnitude w := by omega
  rw [scaledNum, scaledNum, magnitude_eq_of_isInf hv hw, signedInt, signedInt]
  cases signBit v <;> cases signBit w <;> simp [hsides]

/-- The model's order is that of the numbers, the infinities at its ends. -/
theorem numLt_iff {v w : W64} (hv : isNaN v = false) (hw : isNaN w = false) :
    numLt v w = true ↔ numBelow v w := by
  rw [numLt, decide_eq_true_eq, numBelow]
  cases hvf : isFinite v <;> cases hwf : isFinite w
  · rw [scaledNum_lt_iff_of_isInf (isInf_of_not_isFinite hvf hv) (isInf_of_not_isFinite hwf hw)]
    simp
  · rw [scaledNum_lt_iff_left (magnitude_lt_of_isInf hwf (isInf_of_not_isFinite hvf hv))]
    simp
  · rw [scaledNum_lt_iff_right (magnitude_lt_of_isInf hvf (isInf_of_not_isFinite hwf hw))]
    simp
  · simp [numQ_lt_numQ_iff]

/-- The test that max and min make. -/
theorem comparable_iff (v w : W64) :
    (!isNaN v && !isNaN w && numLt v w) = true ↔ isNaN v = false ∧ isNaN w = false ∧ numBelow v w := by
  rw [Bool.and_eq_true, Bool.and_eq_true, Bool.not_eq_true', Bool.not_eq_true', and_assoc]
  exact and_congr_right fun hv => and_congr_right fun hw => numLt_iff hv hw

theorem numMax_of_below {a b : W64} (h : isNaN a = false ∧ isNaN b = false ∧ numBelow a b) :
    numMax a b = .word b := by
  rw [numMax, if_pos ((comparable_iff a b).2 h)]

theorem numMax_of_not_below {a b : W64} (h : ¬ (isNaN a = false ∧ isNaN b = false ∧ numBelow a b)) :
    numMax a b = .word a := by
  rw [numMax, if_neg (mt (comparable_iff a b).1 h)]

theorem numMin_eq_swapped (a b : W64) :
    numMin a b = .word (if !isNaN b && !isNaN a && numLt b a then b else a) := by
  rw [numMin, Bool.and_comm (!isNaN a)]

theorem numMin_of_below {a b : W64} (h : isNaN a = false ∧ isNaN b = false ∧ numBelow b a) :
    numMin a b = .word b := by
  obtain ⟨ha, hb, hlt⟩ := h
  rw [numMin_eq_swapped, if_pos ((comparable_iff b a).2 ⟨hb, ha, hlt⟩)]

theorem numMin_of_not_below {a b : W64} (h : ¬ (isNaN a = false ∧ isNaN b = false ∧ numBelow b a)) :
    numMin a b = .word a := by
  rw [numMin_eq_swapped, if_neg]
  intro htest
  obtain ⟨hb, ha, hlt⟩ := (comparable_iff b a).1 htest
  exact h ⟨ha, hb, hlt⟩

/-! ## Floors -/

/-- The model's division of integers is the floor of the rational quotient. -/
theorem floor_intCast_div (m n : Int) : ⌊(m / n : ℚ)⌋ = m.fdiv n := by
  rcases Int.eq_nat_or_neg n with ⟨k, rfl | rfl⟩
  · rw [Int.cast_natCast, Rat.floor_intCast_div_natCast, Int.fdiv_eq_ediv_of_nonneg _ (Int.natCast_nonneg k)]
  · rw [Int.cast_neg, div_neg, ← neg_div, ← Int.cast_neg, Int.cast_natCast, Rat.floor_intCast_div_natCast,
      ← Int.neg_fdiv_neg, neg_neg, Int.fdiv_eq_ediv_of_nonneg _ (Int.natCast_nonneg k)]

theorem floor_numQ (w : W64) : ⌊numQ w⌋ = (scaledNum w).fdiv scale := by
  rw [numQ_eq_scaledNum, ← Int.cast_natCast, floor_intCast_div]

theorem ceil_numQ (w : W64) : ⌈numQ w⌉ = -((-(scaledNum w)).fdiv scale) := by
  rw [← scaledNum_negate, ← floor_numQ, numQ_eq_scaledNum (negate w), scaledNum_negate, Int.cast_neg, neg_div,
    ← numQ_eq_scaledNum, Int.floor_neg, neg_neg]

/-- The word of `2^53`. -/
def twoPow53 : W64 := 0x4340000000000000#64

theorem numQ_twoPow53 : numQ twoPow53 = 2 ^ 53 := by
  have h : toInt twoPow53 = some (2 ^ 53) := rfl
  exact_mod_cast ((toInt_eq_some_iff _ _).1 h).2

/-- A finite word is an integer, or no larger than `2^53`. -/
theorem numQ_int_or_small {a : W64} (ha : isFinite a = true) : (∃ m : Int, numQ a = m) ∨ |numQ a| ≤ 2 ^ 53 := by
  by_cases hlarge : 1075 ≤ expField a
  · have hfin := (isFinite_iff a).1 ha
    exact .inl ⟨_, ((toInt_eq_some_iff a _).1 (toInt_of_large hlarge (by omega))).2⟩
  · have hexp : expField twoPow53 = 1076 := rfl
    have hmag : magnitude a ≤ magnitude twoPow53 := (magnitude_lt_of_expField_lt (by omega)).le
    refine .inr ?_
    calc |numQ a| ≤ |numQ twoPow53| := by
          rw [abs_numQ, abs_numQ]
          exact div_le_div_of_nonneg_right (Nat.cast_le.2 hmag) scale_cast_pos.le
      _ = 2 ^ 53 := by rw [numQ_twoPow53, abs_of_pos (by positivity)]

/-- An integer `n` that rounds the number of `a` to an integer is the number of a word. -/
theorem ofInt_exact_of_numQ {a : W64} {n : Int} (ha : isFinite a = true) (hint : ∀ m : Int, numQ a = m → n = m)
    (hsmall : |numQ a| ≤ 2 ^ 53 → |n| ≤ 2 ^ 53) : isFinite (ofInt n) = true ∧ numQ (ofInt n) = n := by
  rcases numQ_int_or_small ha with ⟨m, hm⟩ | hle
  · have hn : (n : ℚ) = numQ a := by rw [hint m hm, hm]
    rw [hn]
    exact roundsTo_exact (hn ▸ roundsTo_ofInt n) ha
  · exact ofInt_exact (hsmall hle)

theorem ofInt_floor_exact {a : W64} (ha : isFinite a = true) :
    isFinite (ofInt ⌊numQ a⌋) = true ∧ numQ (ofInt ⌊numQ a⌋) = (⌊numQ a⌋ : Int) := by
  refine ofInt_exact_of_numQ ha (fun m hm => by rw [hm, Int.floor_intCast]) fun h => ?_
  obtain ⟨hlow, hupp⟩ := abs_le.1 h
  exact abs_le.2 ⟨Int.le_floor.2 (by exact_mod_cast hlow),
    Int.cast_le.1 ((Int.floor_le _).trans (by exact_mod_cast hupp))⟩

theorem ofInt_ceil_exact {a : W64} (ha : isFinite a = true) :
    isFinite (ofInt ⌈numQ a⌉) = true ∧ numQ (ofInt ⌈numQ a⌉) = (⌈numQ a⌉ : Int) := by
  refine ofInt_exact_of_numQ ha (fun m hm => by rw [hm, Int.ceil_intCast]) fun h => ?_
  obtain ⟨hlow, hupp⟩ := abs_le.1 h
  exact abs_le.2 ⟨Int.cast_le.1 (le_trans (by exact_mod_cast hlow) (Int.le_ceil _)),
    Int.ceil_le.2 (by exact_mod_cast hupp)⟩

/-! ## floor, ceil and abs (R113) -/

/-- The operands that floor and ceil return unchanged. -/
theorem special_iff (a : W64) :
    (isNaN a || isInf a || isZero a) = true ↔ isFinite a = false ∨ isZero a = true := by
  rw [Bool.or_eq_true]
  refine or_congr_left ?_
  cases hf : isFinite a with
  | false => cases hn : isNaN a with
    | false => simp [isInf_of_not_isFinite hf hn]
    | true => simp
  | true => simp [isNaN_of_isFinite hf, isInf_of_isFinite hf]

theorem not_special {a : W64} (ha : isFinite a = true) (hz : isZero a = false) :
    ¬ (isNaN a || isInf a || isZero a) = true := by
  rw [special_iff, ha, hz]
  decide

theorem numFloor_of_special {a : W64} (h : isFinite a = false ∨ isZero a = true) : numFloor a = .word a := by
  rw [numFloor, if_pos ((special_iff a).2 h)]

theorem numCeil_of_special {a : W64} (h : isFinite a = false ∨ isZero a = true) : numCeil a = .word a := by
  rw [numCeil, if_pos ((special_iff a).2 h)]

theorem numFloor_of_isFinite {a : W64} (ha : isFinite a = true) (hz : isZero a = false) :
    numFloor a = .word (ofInt ⌊numQ a⌋) := by
  rw [numFloor, if_neg (not_special ha hz), floor_numQ]

theorem numCeil_of_isFinite {a : W64} (ha : isFinite a = true) (hz : isZero a = false) :
    numCeil a = .word (if ⌈numQ a⌉ = 0 then zeroWord (signBit a) else ofInt ⌈numQ a⌉) := by
  rw [numCeil, if_neg (not_special ha hz), ceil_numQ]

theorem isZero_zeroWord (neg : Bool) : isZero (zeroWord neg) = true :=
  (isZero_ofSignMag neg (Nat.two_pow_pos 63)).2 rfl

theorem signBit_zeroWord (neg : Bool) : signBit (zeroWord neg) = neg :=
  signBit_ofSignMag neg (Nat.two_pow_pos 63)

theorem signBit_rndInt_of_isZero {n : Int} {d : Nat} (h : isZero (rndInt n d) = true) :
    signBit (rndInt n d) = false := by
  rw [rndInt_of_isZero h]
  rfl

theorem numFloor_exact {a : W64} (ha : isFinite a = true) (hz : isZero a = false) :
    ∃ w, numFloor a = .word w ∧ isFinite w = true ∧ numQ w = (⌊numQ a⌋ : Int) ∧
      (isZero w = true → signBit w = false) := by
  obtain ⟨hfin, hnum⟩ := ofInt_floor_exact ha
  exact ⟨_, numFloor_of_isFinite ha hz, hfin, hnum, signBit_rndInt_of_isZero⟩

theorem numCeil_exact {a : W64} (ha : isFinite a = true) (hz : isZero a = false) :
    ∃ w, numCeil a = .word w ∧ isFinite w = true ∧ numQ w = (⌈numQ a⌉ : Int) ∧
      (isZero w = true → signBit w = signBit a) := by
  refine ⟨_, numCeil_of_isFinite ha hz, ?_⟩
  split
  · next hzero =>
    have hw := isZero_zeroWord (signBit a)
    rw [hzero, Int.cast_zero]
    exact ⟨isFinite_of_isZero hw, numQ_of_isZero hw, fun _ => signBit_zeroWord _⟩
  · next hne =>
    obtain ⟨hfin, hnum⟩ := ofInt_ceil_exact ha
    refine ⟨hfin, hnum, fun hw => absurd ?_ hne⟩
    rw [numQ_of_isZero hw] at hnum
    exact_mod_cast hnum.symm

/-- Clearing bit 63 leaves the two fields. -/
theorem numAbs_exact (a : W64) :
    ∃ w, numAbs a = .word w ∧ signBit w = false ∧ expField w = expField a ∧ fracField w = fracField a := by
  refine ⟨_, rfl, ?_, ?_, ?_⟩
  · rw [signBit, BitVec.getLsbD_and]
    exact Bool.and_false _
  · have hmask : (0x7FFFFFFFFFFFFFFF#64).extractLsb' 52 11 = BitVec.allOnes 11 := rfl
    rw [expField, BitVec.extractLsb'_and, hmask, BitVec.and_allOnes, ← expField]
  · have hmask : (0x7FFFFFFFFFFFFFFF#64).extractLsb' 0 52 = BitVec.allOnes 52 := rfl
    rw [fracField, BitVec.extractLsb'_and, hmask, BitVec.and_allOnes, ← fracField]

/-- Settles O30: the order, the integers next to a number, which a word always holds, and the sign bit. -/
theorem maxMinFloorCeilAbsAreExact : Obligations.MaxMinFloorCeilAbsAreExact :=
  ⟨fun _ _ => ⟨numMax_of_below, numMax_of_not_below, numMin_of_below, numMin_of_not_below⟩,
    fun _ h => ⟨numFloor_of_special h, numCeil_of_special h⟩,
    fun _ ha hz => ⟨numFloor_exact ha hz, numCeil_exact ha hz⟩, numAbs_exact⟩

/-! ## RAND (R115, R140) -/

theorem inRandRange_iff (a w : W64) :
    inRandRange a w = true ↔
      isNaN w = false ∧ min 0 (scaledNum a) ≤ scaledNum w ∧ scaledNum w ≤ max 0 (scaledNum a) := by
  simp [inRandRange, and_assoc]

/-- Between zero and a finite word lie finite words only. -/
theorem isFinite_of_between {a w : W64} (ha : isFinite a = true) (hw : isNaN w = false)
    (hlow : min 0 (scaledNum a) ≤ scaledNum w) (hupp : scaledNum w ≤ max 0 (scaledNum a)) :
    isFinite w = true := by
  by_contra hinf
  have hlt := magnitude_lt_of_isInf ha (isInf_of_not_isFinite (Bool.not_eq_true _ ▸ hinf) hw)
  rw [← natAbs_scaledNum a, ← natAbs_scaledNum w] at hlt
  omega

/-- The bounds of `S` in units of the scale. -/
theorem between_iff (a w : W64) :
    (min 0 (numQ a) ≤ numQ w ∧ numQ w ≤ max 0 (numQ a)) ↔
      min 0 (scaledNum a) ≤ scaledNum w ∧ scaledNum w ≤ max 0 (scaledNum a) := by
  have hscale := scale_cast_pos
  rw [numQ_eq_scaledNum, numQ_eq_scaledNum, ← zero_div (scale : ℚ), min_div_div_right hscale.le,
    max_div_div_right hscale.le, div_le_div_iff_of_pos_right hscale, div_le_div_iff_of_pos_right hscale,
    ← Int.cast_zero, ← Int.cast_min, ← Int.cast_max, Int.cast_le, Int.cast_le]

/-- Between zero and an infinity a word has the infinity's sign, or is a zero. -/
theorem sign_of_between {a w : W64} (hlow : min 0 (scaledNum a) ≤ scaledNum w)
    (hupp : scaledNum w ≤ max 0 (scaledNum a)) : isZero w = true ∨ signBit w = signBit a := by
  rcases lt_trichotomy (scaledNum w) 0 with hneg | hzero | hpos
  · have ha : scaledNum a < 0 := by omega
    exact .inr (((scaledNum_neg_iff w).1 hneg).1.trans ((scaledNum_neg_iff a).1 ha).1.symm)
  · rw [← magnitude_eq_zero_iff, ← natAbs_scaledNum, hzero]
    exact .inl rfl
  · have ha : 0 < scaledNum a := by omega
    exact .inr ((signBit_of_scaledNum_pos hpos).trans (signBit_of_scaledNum_pos ha).symm)

/-- Whatever the free word is, RAND's word lies in `S` (R115). -/
theorem inS_randWord (a free : W64) : inS a (randWord a free) := by
  unfold inS randWord
  split
  · exact isNaN_nanWord free
  next hnan =>
  have hrange : inRandRange a (if inRandRange a free then free else posZero) = true := by
    split
    · assumption
    · have hzero : scaledNum posZero = 0 := scaledNum_of_isZero rfl
      rw [inRandRange_iff, hzero]
      exact ⟨rfl, min_le_left _ _, le_max_left _ _⟩
  obtain ⟨hw, hlow, hupp⟩ := (inRandRange_iff _ _).1 hrange
  split
  · exact ⟨hw, sign_of_between hlow hupp⟩
  · next hinf =>
    have ha : isFinite a = true := by
      by_contra hf
      exact hinf (isInf_of_not_isFinite (Bool.not_eq_true _ ▸ hf) (Bool.not_eq_true _ ▸ hnan))
    exact ⟨isFinite_of_between ha hw hlow hupp, (between_iff _ _).2 ⟨hlow, hupp⟩⟩

theorem execRand_ok {s : State} {dst : RegNum} {d : Reg} (hd : regOf dst = some d) :
    exec (.rand dst) s = .next (s.setReg d (randWord (s.reg d) (Config.freeWord s.draws))).drawn.advance := by
  simp [exec, execRand, opreg_ok.2 hd]

/-- Settles O35: the drawn word lies in the set, and the rest is the template of one register. -/
theorem randDrawsFromItsSet : Obligations.RandDrawsFromItsSet := by
  refine ⟨encoded_of_decodeFields fun _ _ => rfl, fun s dst => ⟨fun h => ?_, fun d hd => ⟨_, execRand_ok hd, ?_⟩⟩⟩
  · exact raises_of_checks_one (exists_mem_singleton_regOf_none h)
  · have hreg : (s.setReg d (randWord (s.reg d) (Config.freeWord s.draws))).drawn.advance.reg d =
        randWord (s.reg d) (Config.freeWord s.draws) := setReg_reg_self s d _
    rw [hreg]
    exact ⟨inS_randWord _ _, rfl⟩

end Sys2Proof.Machine
end

section
/-! PROOFS. Sums, products and quotients rounded once (spec/40_math.md R111, R112). -/

namespace Sys2Proof.Machine

open Sys2Proof.Spec

/-! ## A rounded result and its sign (R10, R111) -/

theorem roundedResult_rnd (neg : Bool) {n d : Nat} (hd : 0 < d) {q : ℚ} (hq : q = signQ neg * (n / d)) :
    RoundedResult (.word (rnd neg n d)) q neg :=
  ⟨_, rfl, hq ▸ roundsTo_rnd neg n hd, fun _ => signBit_ofSignMag neg (roundMag_lt n d)⟩

theorem roundedResult_rndInt {n : Int} {d : Nat} (hd : 0 < d) {q : ℚ} (hq : q = n / d) :
    RoundedResult (.word (rndInt n d)) q false :=
  ⟨_, rfl, hq ▸ roundsTo_rndInt n hd, signBit_rndInt_of_isZero⟩

theorem roundedResult_ofInt (n : Int) : RoundedResult (.word (ofInt n)) n false :=
  ⟨_, rfl, roundsTo_ofInt n, signBit_rndInt_of_isZero⟩

theorem signQ_xor (a b : Bool) : signQ (a ^^ b) = signQ a * signQ b := by
  cases a <;> cases b <;> norm_num [signQ]

theorem signQ_xor_eq_div (a b : Bool) : signQ (a ^^ b) = signQ a / signQ b := by
  cases a <;> cases b <;> norm_num [signQ]

theorem magnitude_pos {w : W64} (h : isZero w = false) : 0 < magnitude w := by
  rw [Nat.pos_iff_ne_zero, Ne, magnitude_eq_zero_iff, h]
  exact Bool.false_ne_true

theorem isZero_of_isInf {w : W64} (h : isInf w = true) : isZero w = false :=
  isZero_of_not_isFinite (isFinite_of_isInf h)

/-! ## add and sub -/

theorem numAdd_of_isNaN {a b : W64} (h : isNaN a = true ∨ isNaN b = true) : numAdd a b = .nan := by
  rw [numAdd, if_pos (Bool.or_eq_true_iff.2 h)]

theorem numAdd_of_isInf_left {a b : W64} (ha : isInf a = true) (hb : isFinite b = true) :
    numAdd a b = .word a := by
  simp [numAdd, ha, isNaN_of_isInf ha, isNaN_of_isFinite hb, isInf_of_isFinite hb]

theorem numAdd_of_isInf_right {a b : W64} (ha : isInf a = true) (hb : isFinite b = true) :
    numAdd b a = .word a := by
  simp [numAdd, ha, isNaN_of_isInf ha, isNaN_of_isFinite hb, isInf_of_isFinite hb]

theorem numAdd_of_isInf_both {a b : W64} (ha : isInf a = true) (hb : isInf b = true) :
    numAdd a b = if signBit a = signBit b then .word a else .nan := by
  simp only [numAdd, ha, hb, isNaN_of_isInf ha, isNaN_of_isInf hb]
  cases signBit a <;> cases signBit b <;> rfl

theorem eq_negZero_iff (w : W64) : w = negZero ↔ isZero w = true ∧ signBit w = true := by
  constructor
  · rintro rfl
    exact ⟨rfl, rfl⟩
  · rintro ⟨hz, hs⟩
    obtain ⟨he, hf⟩ := (isZero_iff w).1 hz
    exact eq_of_fields_eq hs he hf

/-- The one sum with a negative zero (R111). -/
theorem numAdd_negZero : numAdd negZero negZero = .word negZero := rfl

theorem numAdd_of_not_negZero {a b : W64} (ha : isFinite a = true) (hb : isFinite b = true)
    (h : ¬ (a = negZero ∧ b = negZero)) : numAdd a b = .word (rndInt (scaledNum a + scaledNum b) scale) := by
  have htest : (isZero a && isZero b && signBit a && signBit b) = false := by
    rw [eq_negZero_iff, eq_negZero_iff] at h
    rw [← Bool.not_eq_true]
    simp only [Bool.and_eq_true]
    tauto
  simp [numAdd, isNaN_of_isFinite ha, isNaN_of_isFinite hb, isInf_of_isFinite ha, isInf_of_isFinite hb, htest]

theorem roundedResult_numAdd {a b : W64} (ha : isFinite a = true) (hb : isFinite b = true) :
    RoundedResult (numAdd a b) (numQ a + numQ b) (decide (a = negZero ∧ b = negZero)) := by
  by_cases h : a = negZero ∧ b = negZero
  · obtain ⟨rfl, rfl⟩ := h
    have hzero : numQ negZero + numQ negZero = (0 : Int) := by
      rw [numQ_of_isZero rfl, add_zero, Int.cast_zero]
    rw [hzero]
    exact ⟨_, numAdd_negZero, roundsTo_of_isZero (roundsTo_ofInt 0) rfl rfl, fun _ => rfl⟩
  · rw [numAdd_of_not_negZero ha hb h, decide_eq_false h]
    refine roundedResult_rndInt scale_pos ?_
    rw [numQ_eq_scaledNum, numQ_eq_scaledNum, Int.cast_add, add_div]

theorem eq_negate_of_fields {b c : W64} (hs : signBit c = !signBit b) (he : expField c = expField b)
    (hf : fracField c = fracField b) : c = negate b :=
  eq_of_fields_eq (hs.trans (signBit_negate b).symm) (he.trans (expField_negate b).symm)
    (hf.trans (fracField_negate b).symm)

/-- Settles O26: each kind of operands, the finite ones in units of the scale. -/
theorem addAndSubRoundOnce : Obligations.AddAndSubRoundOnce :=
  ⟨fun _ _ => numAdd_of_isNaN, fun _ _ => roundedResult_numAdd,
    fun _ _ ha hb => ⟨numAdd_of_isInf_left ha hb, numAdd_of_isInf_right ha hb⟩,
    fun _ _ => numAdd_of_isInf_both,
    fun a _ _ hs he hf => congrArg (numAdd a) (eq_negate_of_fields hs he hf).symm⟩

/-! ## mul -/

theorem numMul_of_isNaN {a b : W64} (h : isNaN a = true ∨ isNaN b = true) : numMul a b = .nan := by
  rw [numMul, if_pos (Bool.or_eq_true_iff.2 h)]

theorem numMul_of_isFinite {a b : W64} (ha : isFinite a = true) (hb : isFinite b = true) :
    numMul a b = .word (rnd (signBit a ^^ signBit b) (magnitude a * magnitude b) (scale * scale)) := by
  simp [numMul, isNaN_of_isFinite ha, isNaN_of_isFinite hb, isInf_of_isFinite ha, isInf_of_isFinite hb]

/-- An infinity by a zero has no product. -/
theorem numMul_of_isInf_of_isZero {a b : W64} (ha : isInf a = true) (hb : isZero b = true) :
    numMul a b = .nan := by
  have hfin := isFinite_of_isZero hb
  simp [numMul, ha, hb, isNaN_of_isInf ha, isNaN_of_isFinite hfin]

theorem numMul_of_isInf {a b : W64} (ha : isInf a = true) (hn : isNaN b = false) (hz : isZero b = false) :
    numMul a b = .word (infWord (signBit a ^^ signBit b)) := by
  simp [numMul, ha, hn, hz, isNaN_of_isInf ha, isZero_of_isInf ha]

theorem numMul_comm (a b : W64) : numMul a b = numMul b a := by
  unfold numMul
  rw [Bool.or_comm (isNaN a), Bool.or_comm (isInf a), Bool.or_comm (isZero a), bne_comm, mul_comm (magnitude a)]

theorem roundedResult_numMul {a b : W64} (ha : isFinite a = true) (hb : isFinite b = true) :
    RoundedResult (numMul a b) (numQ a * numQ b) (signBit a ^^ signBit b) := by
  rw [numMul_of_isFinite ha hb]
  refine roundedResult_rnd _ (Nat.mul_pos scale_pos scale_pos) ?_
  rw [numQ_eq_signQ_mul, numQ_eq_signQ_mul, signQ_xor, Nat.cast_mul, Nat.cast_mul, mul_div_mul_comm,
    mul_mul_mul_comm]

/-! ## div -/

theorem numDiv_of_isNaN {a b : W64} (h : isNaN a = true ∨ isNaN b = true) : numDiv a b = .nan := by
  rw [numDiv, if_pos (Bool.or_eq_true_iff.2 h)]

theorem numDiv_of_isFinite {a b : W64} (ha : isFinite a = true) (hb : isFinite b = true) :
    numDiv a b = .word (rnd (signBit a ^^ signBit b) (magnitude a) (magnitude b)) := by
  simp [numDiv, isNaN_of_isFinite ha, isNaN_of_isFinite hb, isInf_of_isFinite ha, isInf_of_isFinite hb]

theorem numDiv_of_isInf_both {a b : W64} (ha : isInf a = true) (hb : isInf b = true) : numDiv a b = .nan := by
  simp [numDiv, ha, hb, isNaN_of_isInf ha, isNaN_of_isInf hb]

theorem numDiv_of_isInf_left {a b : W64} (ha : isInf a = true) (hb : isFinite b = true) :
    numDiv a b = .word (infWord (signBit a ^^ signBit b)) := by
  simp [numDiv, ha, isNaN_of_isInf ha, isNaN_of_isFinite hb, isInf_of_isFinite hb]

theorem numDiv_of_isInf_right {a b : W64} (ha : isFinite a = true) (hb : isInf b = true) :
    numDiv a b = .word (zeroWord (signBit a ^^ signBit b)) := by
  simp [numDiv, hb, isNaN_of_isInf hb, isNaN_of_isFinite ha, isInf_of_isFinite ha]

theorem roundedResult_numDiv {a b : W64} (ha : isFinite a = true) (hb : isFinite b = true)
    (hz : isZero b = false) : RoundedResult (numDiv a b) (numQ a / numQ b) (signBit a ^^ signBit b) := by
  rw [numDiv_of_isFinite ha hb]
  refine roundedResult_rnd _ (magnitude_pos hz) ?_
  rw [numQ_eq_signQ_mul, numQ_eq_signQ_mul, signQ_xor_eq_div, mul_div_mul_comm,
    div_div_div_cancel_right₀ scale_cast_pos.ne']

/-- Settles O27: each kind of operands, the sizes and the signs apart. -/
theorem mulAndDivRoundOnce : Obligations.MulAndDivRoundOnce :=
  ⟨fun _ _ h => ⟨numMul_of_isNaN h, numDiv_of_isNaN h⟩, fun _ _ => roundedResult_numMul,
    fun _ _ => roundedResult_numDiv,
    fun a b ha hb => ⟨numMul_of_isInf_of_isZero ha hb, (numMul_comm b a).trans (numMul_of_isInf_of_isZero ha hb)⟩,
    fun a b ha hn hz => ⟨numMul_of_isInf ha hn hz, (numMul_comm b a).trans (numMul_of_isInf ha hn hz)⟩,
    fun _ _ => numDiv_of_isInf_both, fun _ _ ha hb _ => numDiv_of_isInf_left ha hb,
    fun _ _ ha hb => ⟨_, numDiv_of_isInf_right ha hb, isZero_zeroWord _, signBit_zeroWord _⟩⟩

/-! ## Floor division and the remainder (R112) -/

section special

variable {a b : W64}

theorem numFloorDiv_of_special (h : isNaN a = true ∨ isNaN b = true ∨ isInf a = true) :
    numFloorDiv a b = .nan := by
  rw [numFloorDiv, if_pos]
  simpa [or_assoc] using h

theorem numMod_of_special (h : isNaN a = true ∨ isNaN b = true ∨ isInf a = true) : numMod a b = .nan := by
  rw [numMod, if_pos]
  simpa [or_assoc] using h

theorem numFloorDiv_of_isInf (ha : isFinite a = true) (hb : isInf b = true) :
    numFloorDiv a b = .word (if isZero a || signBit a == signBit b then posZero else minusOne) := by
  simp only [numFloorDiv, isNaN_of_isFinite ha, isNaN_of_isInf hb, isInf_of_isFinite ha, hb]
  rfl

theorem numMod_of_isInf (ha : isFinite a = true) (hb : isInf b = true) :
    numMod a b = .word (if isZero a then posZero else if signBit a == signBit b then a else b) := by
  simp only [numMod, isNaN_of_isFinite ha, isNaN_of_isInf hb, isInf_of_isFinite ha, hb]
  rfl

theorem floor_numQ_div : ⌊numQ a / numQ b⌋ = (scaledNum a).fdiv (scaledNum b) := by
  rw [numQ_eq_scaledNum, numQ_eq_scaledNum, div_div_div_cancel_right₀ scale_cast_pos.ne', floor_intCast_div]

theorem numFloorDiv_of_isFinite (ha : isFinite a = true) (hb : isFinite b = true) :
    numFloorDiv a b = .word (ofInt ⌊numQ a / numQ b⌋) := by
  simp [numFloorDiv, isNaN_of_isFinite ha, isNaN_of_isFinite hb, isInf_of_isFinite ha, isInf_of_isFinite hb,
    floor_numQ_div]

theorem numMod_of_isFinite (ha : isFinite a = true) (hb : isFinite b = true) :
    numMod a b = .word (rndInt (scaledNum a - scaledNum b * ⌊numQ a / numQ b⌋) scale) := by
  simp [numMod, isNaN_of_isFinite ha, isNaN_of_isFinite hb, isInf_of_isFinite ha, isInf_of_isFinite hb,
    floor_numQ_div, Int.fmod_def]

theorem roundedResult_numMod (ha : isFinite a = true) (hb : isFinite b = true) :
    RoundedResult (numMod a b) (numQ a - numQ b * (⌊numQ a / numQ b⌋ : Int)) false := by
  rw [numMod_of_isFinite ha hb]
  refine roundedResult_rndInt scale_pos ?_
  rw [Int.cast_sub, Int.cast_mul, sub_div, mul_div_right_comm, ← numQ_eq_scaledNum, ← numQ_eq_scaledNum]

end special

/-- Settles O29: each kind of operands; the floor is that of the integers in units of the scale. -/
theorem floorDivisionAndModulo : Obligations.FloorDivisionAndModulo := by
  refine ⟨fun _ _ _ h => ⟨numFloorDiv_of_special h, numMod_of_special h⟩, fun a b ha hb => ?_,
    fun a b ha hb _ => ?_⟩
  · rw [numFloorDiv_of_isInf ha hb, numMod_of_isInf ha hb]
    refine ⟨fun hz => ?_, fun hz hs => ?_, fun hz hs => ?_⟩
    · simp [hz, posZero]
    · simp [hz, hs, posZero]
    · simp [hz, hs]
  · rw [numFloorDiv_of_isFinite ha hb]
    exact ⟨roundedResult_ofInt _, roundedResult_numMod ha hb⟩

end Sys2Proof.Machine
end

section
/-! PROOFS. The square root (spec/40_math.md R111): the integer root is within one of the real root, and between two
integers in a row lies no boundary of a rounding to a much larger unit, so that the word rounded from the
integer root, with a half added when it is not exact, is the real root rounded. -/

namespace Sys2Proof.Machine

open Sys2Proof.Spec

/-! ## The integer root -/

/-- The search keeps the root between the bits found and those still open. -/
theorem isqrtFrom_eq_sqrt {fuel n root : Nat} (hlow : root * root ≤ n)
    (hupp : n < (root + 2 ^ fuel) * (root + 2 ^ fuel)) : isqrtFrom fuel n root = Nat.sqrt n := by
  induction fuel generalizing root with
  | zero => exact Nat.eq_sqrt.2 ⟨hlow, hupp⟩
  | succ k ih =>
    rw [pow_succ, mul_two, ← add_assoc] at hupp
    rw [isqrtFrom]
    split
    · next hbit => exact ih hbit hupp
    · next hbit => exact ih hlow (not_le.1 hbit)

/-! ## An inexact root between two integers -/

/-- `t` is twice `x`, or, where `x` is no integer, twice its integer part with the last bit set. -/
def IsTwiceOrBetween (t : Nat) (x : ℝ) : Prop :=
  (t : ℝ) = 2 * x ∨ ∃ r : Nat, t = 2 * r + 1 ∧ r < x ∧ x < r + 1

theorem isTwiceOrBetween_sqrt (n : Nat) :
    IsTwiceOrBetween (2 * Nat.sqrt n + if Nat.sqrt n * Nat.sqrt n = n then 0 else 1) (Real.sqrt n) := by
  split
  · next hexact =>
    left
    have hroot : Real.sqrt n = Nat.sqrt n := by
      conv_lhs => rw [← hexact]
      rw [Nat.cast_mul, Real.sqrt_mul_self (Nat.cast_nonneg _)]
    rw [hroot]
    push_cast
    ring
  · next hne =>
    refine .inr ⟨_, rfl, lt_of_le_of_ne Real.nat_sqrt_le_real_sqrt fun heq => hne ?_,
      Real.real_sqrt_lt_nat_sqrt_succ⟩
    have hsq : ((Nat.sqrt n * Nat.sqrt n : Nat) : ℝ) = n := by
      rw [Nat.cast_mul, heq, Real.mul_self_sqrt (Nat.cast_nonneg n)]
    exact_mod_cast hsq

/-! ## Rounding a real -/

/-- A rounded rational is a rounded real. -/
theorem RoundedAt.cast_real {y : ℚ} {E k : Nat} (h : RoundedAt y E k) : RoundedAt (y : ℝ) E k := by
  obtain ⟨hnear, htie, hlt, hlead, hnonneg⟩ := h
  have hdist : |(k : ℝ) - y| = (|k - y| : ℚ) := by push_cast; rfl
  have hhalf : (1 / 2 : ℝ) = (1 / 2 : ℚ) := by norm_num
  refine ⟨?_, fun heq => htie ?_, by exact_mod_cast hlt, hlead.imp id fun hy => by exact_mod_cast hy,
    by exact_mod_cast hnonneg⟩
  · rw [hdist, hhalf]
    exact Rat.cast_le.2 hnear
  · rw [hdist, hhalf] at heq
    exact Rat.cast_injective heq

/-- In units of `2^i` no integer lies between `t / 2` and `x`. -/
theorem sides_of_between {t r : Nat} {x : ℝ} (ht : t = 2 * r + 1) (hlow : r < x) (hupp : x < r + 1) (i : Nat)
    (c : Int) : ((c : ℝ) ≤ t / 2 ^ (i + 1) → c < x / 2 ^ i) ∧ (t / 2 ^ (i + 1) ≤ (c : ℝ) → x / 2 ^ i < c) := by
  have hpos : (0 : ℝ) < 2 ^ i := by positivity
  rw [le_div_iff₀ (by positivity), div_le_iff₀ (by positivity), lt_div_iff₀ hpos, div_lt_iff₀ hpos, ht, pow_succ,
    ← mul_assoc]
  constructor
  · intro h
    have hint : c * 2 ^ i * 2 ≤ 2 * r + 1 := by exact_mod_cast h
    have hle : c * 2 ^ i ≤ r := by omega
    exact lt_of_le_of_lt (by exact_mod_cast hle) hlow
  · intro h
    have hint : 2 * r + 1 ≤ c * 2 ^ i * 2 := by exact_mod_cast h
    have hle : (r : Int) + 1 ≤ c * 2 ^ i := by omega
    exact lt_of_lt_of_le hupp (by exact_mod_cast hle)

/-- In units of `2^(i+1)` the bounds of a rounding are multiples of a half, that is of `2^i`, so `t / 2` and `x`
round alike. -/
theorem RoundedAt.of_isTwiceOrBetween {t i E k : Nat} {x : ℝ} (hx : IsTwiceOrBetween t x)
    (h : RoundedAt (t / 2 ^ (i + 1) / 2 : ℝ) E k) : RoundedAt (x / 2 ^ i / 2) E k := by
  rcases hx with ht | ⟨r, ht, hlow, hupp⟩
  · rwa [ht, pow_succ', mul_div_mul_left _ _ two_ne_zero] at h
  obtain ⟨hnear, -, hlt, hlead, -⟩ := h
  obtain ⟨hnear1, hnear2⟩ := abs_le.1 hnear
  have hside := sides_of_between ht hlow hupp i
  have habove := (hside (2 * k - 1)).1 (by push_cast; linarith)
  have hbelow := (hside (2 * k + 1)).2 (by push_cast; linarith)
  have hcap := (hside (2 ^ 54)).2 (by push_cast; linarith)
  push_cast at habove hbelow hcap
  have hstrict : |(k - x / 2 ^ i / 2 : ℝ)| < 1 / 2 := abs_lt.2 ⟨by linarith, by linarith⟩
  refine ⟨hstrict.le, fun heq => absurd heq hstrict.ne, by linarith, hlead.imp id fun hy => ?_, ?_⟩
  · have hfloor := (hside (2 ^ 53)).1 (by push_cast; linarith)
    push_cast at hfloor
    linarith
  · have hpos : 0 < x := lt_of_le_of_lt (Nat.cast_nonneg r) hlow
    positivity

/-- The word of a rounded positive real is the nearest one. -/
theorem RoundedAt.nearest_real {y : ℝ} {E k : Nat} (h : RoundedAt y E k) (hy : 0 < y) {w : W64}
    (hw : numQ w = k * 2 ^ E / scale) (v : W64) :
    |((numQ w : ℚ) : ℝ) - y * 2 ^ E / scale| ≤ |((numQ v : ℚ) : ℝ) - y * 2 ^ E / scale| ∧
      (numQ v ≠ numQ w →
        |((numQ v : ℚ) : ℝ) - y * 2 ^ E / scale| = |((numQ w : ℚ) : ℝ) - y * 2 ^ E / scale| → k % 2 = 0) := by
  have hscale : (0 : ℝ) < scale := Nat.cast_pos.2 scale_pos
  have hb : 0 < y * 2 ^ E / scale := by positivity
  have hunit : ∀ a : ℝ, |a / scale - y * 2 ^ E / scale| = |a - y * 2 ^ E| / scale := fun a => by
    rw [← sub_div, abs_div, abs_of_pos hscale]
  have hv : |((numQ v : ℚ) : ℝ)| = magnitude v / scale := by
    rw [← Rat.cast_abs, abs_numQ, Rat.cast_div, Rat.cast_natCast, Rat.cast_natCast]
  have hwR : ((numQ w : ℚ) : ℝ) = k * 2 ^ E / scale := by
    rw [hw]
    push_cast
    rfl
  obtain ⟨hle, htie⟩ := h.nearest v
  have hsize : |((numQ w : ℚ) : ℝ) - y * 2 ^ E / scale| ≤ |(|((numQ v : ℚ) : ℝ)| - y * 2 ^ E / scale)| := by
    rw [hv, hwR, hunit, hunit]
    exact div_le_div_of_nonneg_right hle hscale.le
  rcases le_or_gt 0 ((numQ v : ℚ) : ℝ) with hpos | hneg
  · rw [abs_of_nonneg hpos] at hsize hv
    refine ⟨hsize, fun hne heq => htie (fun hmag => hne ?_) ?_⟩
    · have hreal : ((numQ v : ℚ) : ℝ) = (numQ w : ℚ) := by
        rw [hv, hwR, hmag, Nat.cast_mul, Nat.cast_pow, Nat.cast_ofNat]
      exact Rat.cast_injective hreal
    · rw [hv, hwR, hunit, hunit] at heq
      exact (div_left_inj' hscale.ne').1 heq
  · have hfar : |((numQ w : ℚ) : ℝ) - y * 2 ^ E / scale| < |((numQ v : ℚ) : ℝ) - y * 2 ^ E / scale| := by
      rw [abs_of_neg hneg] at hsize
      refine hsize.trans_lt ?_
      rw [abs_of_neg (a := ((numQ v : ℚ) : ℝ) - _) (by linarith)]
      exact abs_lt.2 ⟨by linarith, by linarith⟩
    exact ⟨hfar.le, fun _ heq => absurd heq hfar.ne'⟩

/-! ## The model's square root -/

/-- The significand of a word, in the unit of its last place. -/
def significandOf (a : W64) : Nat := if expField a = 0 then fracField a else 2 ^ 52 + fracField a

/-- The integer whose root `sqrtPositive` takes: the significand, doubled where the exponent is odd, with 128 bits
to spare. -/
def rootArg (a : W64) : Nat :=
  (if (expField a - 1) % 2 = 0 then significandOf a else 2 * significandOf a) * 2 ^ 128

/-- Half of the exponent. -/
def rootExp (a : W64) : Nat := (expField a - 1) / 2

/-- Twice the integer root, the last bit set where the root is not exact. -/
def rootBits (a : W64) : Nat :=
  2 * Nat.sqrt (rootArg a) + if Nat.sqrt (rootArg a) * Nat.sqrt (rootArg a) = rootArg a then 0 else 1

/-- The numerator of the rational that `sqrtPositive` rounds. -/
def rootNum (a : W64) : Nat := rootBits a * 2 ^ rootExp a

/-- Its denominator. -/
def rootDen : Nat := 2 ^ 602

/-- The exponent of its unit in the last place. -/
def rootUlp (a : W64) : Int := ulpExp (rootNum a) rootDen

/-- That unit as an exponent field. -/
def rootField (a : W64) : Nat := unitField (rootNum a) rootDen

/-- Its significand, in that unit. -/
def rootSignificand (a : W64) : Nat := significand (rootNum a) rootDen

theorem rootDen_pos : 0 < rootDen := by
  rw [rootDen]
  exact pow_pos (by norm_num) _

theorem rootNum_div_rootDen (a : W64) : (rootNum a / rootDen : ℚ) = rootBits a * 2 ^ rootExp a / 2 ^ 602 := by
  rw [rootNum, rootDen, Nat.cast_mul, Nat.cast_pow, Nat.cast_pow, Nat.cast_ofNat]

theorem significandOf_lt (a : W64) : significandOf a < 2 ^ 53 := by
  have hf := fracField_lt a
  unfold significandOf
  split <;> omega

theorem magnitude_eq_significandOf (a : W64) : magnitude a = significandOf a * 2 ^ (expField a - 1) := by
  unfold magnitude significandOf
  split
  · next he => rw [he, Nat.zero_sub, pow_zero, mul_one]
  · rfl

theorem rootArg_lt (a : W64) : rootArg a < 2 ^ 184 := by
  have hsig := significandOf_lt a
  unfold rootArg
  split <;> omega

theorem rootArg_ge {a : W64} (hz : isZero a = false) : 2 ^ 128 ≤ rootArg a := by
  have hsig : 0 < significandOf a := by
    have hm := magnitude_pos hz
    rw [magnitude_eq_significandOf] at hm
    exact Nat.pos_of_mul_pos_right hm
  unfold rootArg
  split <;> omega

/-- The argument of the integer root is the number, in an even unit. -/
theorem rootArg_mul (a : W64) : rootArg a * (2 ^ rootExp a * 2 ^ rootExp a) = magnitude a * 2 ^ 128 := by
  have hexp : expField a - 1 = rootExp a + rootExp a + (expField a - 1) % 2 := by
    unfold rootExp
    omega
  rw [magnitude_eq_significandOf, rootArg, hexp, pow_add, pow_add, ← hexp]
  rcases Nat.mod_two_eq_zero_or_one (expField a - 1) with h | h
  · rw [h, if_pos rfl]
    ring
  · rw [h, if_neg one_ne_zero]
    ring

theorem sqrtPositive_eq (a : W64) : sqrtPositive a = rnd false (rootNum a) rootDen := by
  have hroot : isqrtFrom 92 (rootArg a) 0 = Nat.sqrt (rootArg a) := by
    refine isqrtFrom_eq_sqrt (Nat.zero_le _) ?_
    rw [Nat.zero_add, ← pow_add]
    exact rootArg_lt a
  rw [rootNum, rootBits, ← hroot]
  rfl

/-- The real root, by the root of the integer. -/
theorem sqrt_numQ {a : W64} (hs : signBit a = false) :
    Real.sqrt (numQ a : ℚ) = Real.sqrt (rootArg a) * 2 ^ rootExp a / 2 ^ 601 := by
  have hunits : (2 : ℝ) ^ 601 * 2 ^ 601 = scale * 2 ^ 128 := by
    rw [scale, Nat.cast_pow, Nat.cast_ofNat, ← pow_add, ← pow_add]
  have harg : (rootArg a * (2 ^ rootExp a * 2 ^ rootExp a) : ℝ) = magnitude a * 2 ^ 128 := by
    exact_mod_cast rootArg_mul a
  have hnum : ((numQ a : ℚ) : ℝ) = magnitude a / scale := by
    rw [numQ_eq_signQ_mul, hs, signQ, if_neg Bool.false_ne_true, one_mul, Rat.cast_div, Rat.cast_natCast,
      Rat.cast_natCast]
  have hsq : ((numQ a : ℚ) : ℝ) = (Real.sqrt (rootArg a) * 2 ^ rootExp a / 2 ^ 601) ^ 2 := by
    rw [sq, div_mul_div_comm, mul_mul_mul_comm, Real.mul_self_sqrt (Nat.cast_nonneg _), harg, hunits,
      mul_div_mul_right _ _ (by positivity), hnum]
  rw [hsq, Real.sqrt_sq (by positivity)]

theorem two_pow_le_rootBits {a : W64} (hz : isZero a = false) : 2 ^ 65 ≤ rootBits a := by
  have hroot : 2 ^ 64 ≤ Nat.sqrt (rootArg a) := by
    rw [Nat.le_sqrt, ← pow_add]
    exact rootArg_ge hz
  rw [rootBits]
  omega

theorem rootBits_lt (a : W64) : rootBits a < 2 ^ 93 := by
  have hroot : Nat.sqrt (rootArg a) < 2 ^ 92 := by
    rw [Nat.sqrt_lt, ← pow_add]
    exact rootArg_lt a
  rw [rootBits]
  split <;> omega

theorem rootNum_pos {a : W64} (hz : isZero a = false) : 0 < rootNum a :=
  Nat.mul_pos (lt_of_lt_of_le (Nat.two_pow_pos 65) (two_pow_le_rootBits hz)) (Nat.two_pow_pos _)

/-- The unit of the root is at least `2^12` units of the integer root. -/
theorem rootUlp_ge {a : W64} (hz : isZero a = false) : (rootExp a : Int) - 589 ≤ rootUlp a := by
  have hbits : (2 : ℚ) ^ 65 ≤ rootBits a := by exact_mod_cast two_pow_le_rootBits hz
  have hlow : (2 : ℚ) ^ ((65 : Int) + rootExp a - (602 : Nat)) ≤ rootNum a / rootDen := by
    rw [rootNum_div_rootDen, zpow_sub₀ two_ne_zero, zpow_add₀ two_ne_zero, zpow_natCast, zpow_natCast]
    exact div_le_div_of_nonneg_right (mul_le_mul_of_nonneg_right hbits (by positivity)) (by positivity)
  obtain ⟨-, hupp⟩ := floorLog2_bounds (rootNum_pos hz) rootDen_pos
  have hlt := (zpow_lt_zpow_iff_right₀ one_lt_two).1 (hlow.trans_lt hupp)
  rw [rootUlp, ulpExp]
  omega

/-- The unit of the root in units of the integer root: a power of two, and even. -/
theorem exists_two_zpow_rootUlp {a : W64} (hz : isZero a = false) :
    ∃ i : Nat, (2 : ℚ) ^ rootUlp a * 2 ^ 601 = 2 ^ rootExp a * 2 ^ (i + 1) := by
  have hge := rootUlp_ge hz
  refine ⟨(rootUlp a + 600 - rootExp a).toNat, ?_⟩
  rw [← zpow_natCast, ← zpow_natCast, ← zpow_natCast, ← zpow_add₀ two_ne_zero, ← zpow_add₀ two_ne_zero]
  refine congrArg (fun e : Int => (2 : ℚ) ^ e) ?_
  omega

theorem two_zpow_rootUlp (a : W64) : (2 : ℚ) ^ rootUlp a = 2 ^ rootField a / scale := two_zpow_ulpExp _ _

/-- The integer root with its last bit, in the unit of the word, and rounded. -/
theorem roundedAt_rootBits {a : W64} {i : Nat} (hz : isZero a = false)
    (hi : (2 : ℚ) ^ rootUlp a * 2 ^ 601 = 2 ^ rootExp a * 2 ^ (i + 1)) :
    RoundedAt (rootBits a / 2 ^ (i + 1) / 2 : ℚ) (rootField a) (rootSignificand a) := by
  have h := roundedAt_significand (rootNum_pos hz) rootDen_pos
  have hden : (2 ^ 602 * 2 ^ rootUlp a : ℚ) = 2 ^ rootExp a * (2 ^ (i + 1) * 2) := by
    rw [pow_succ _ 601, mul_right_comm, mul_comm (2 ^ 601), hi, mul_assoc]
  have hunit : (rootNum a / rootDen / 2 ^ rootUlp a : ℚ) = rootBits a / 2 ^ (i + 1) / 2 := by
    rw [rootNum_div_rootDen, div_div, hden, mul_comm (rootBits a : ℚ), mul_div_mul_left _ _ (by positivity), div_div]
  rw [← rootUlp, hunit] at h
  exact h

/-- The significand and the unit of the word are those of the real root rounded. -/
theorem roundedAt_sqrt {a : W64} (hz : isZero a = false) (hs : signBit a = false) :
    ∃ y : ℝ, 0 < y ∧ RoundedAt y (rootField a) (rootSignificand a) ∧
      y * 2 ^ rootField a / scale = Real.sqrt (numQ a : ℚ) := by
  obtain ⟨i, hi⟩ := exists_two_zpow_rootUlp hz
  have hbits : RoundedAt (rootBits a / 2 ^ (i + 1) / 2 : ℝ) (rootField a) (rootSignificand a) := by
    have h := (roundedAt_rootBits hz hi).cast_real
    push_cast at h
    exact h
  have hpos : (0 : ℝ) < Real.sqrt (rootArg a) :=
    Real.sqrt_pos.2 (Nat.cast_pos.2 (lt_of_lt_of_le (Nat.two_pow_pos 128) (rootArg_ge hz)))
  refine ⟨_, by positivity, hbits.of_isTwiceOrBetween (isTwiceOrBetween_sqrt (rootArg a)), ?_⟩
  have hunit : (2 ^ rootField a / scale * 2 ^ 601 : ℝ) = 2 ^ rootExp a * 2 ^ (i + 1) := by
    rw [two_zpow_rootUlp] at hi
    have h := congrArg (Rat.cast (K := ℝ)) hi
    push_cast at h
    exact h
  rw [sqrt_numQ hs, mul_div_assoc, eq_div_iff (by positivity), mul_assoc, hunit, pow_succ]
  field_simp

/-- The unit of the root is far below the largest one. -/
theorem rootField_le {a : W64} (hz : isZero a = false) : rootField a ≤ 1535 := by
  have hexp : rootExp a ≤ 1023 := by
    have := expField_lt a
    rw [rootExp]
    omega
  have hbits : (rootBits a : ℚ) < 2 ^ 93 := by exact_mod_cast rootBits_lt a
  have hupp : (rootNum a / rootDen : ℚ) < 2 ^ ((93 : Int) + rootExp a - (602 : Nat)) := by
    rw [rootNum_div_rootDen, zpow_sub₀ two_ne_zero, zpow_add₀ two_ne_zero, zpow_natCast, zpow_natCast]
    exact div_lt_div_of_pos_right (mul_lt_mul_of_pos_right hbits (by positivity)) (by positivity)
  obtain ⟨hlow, -⟩ := floorLog2_bounds (rootNum_pos hz) rootDen_pos
  have hlt := (zpow_lt_zpow_iff_right₀ one_lt_two).1 (hlow.trans_lt hupp)
  rw [rootField, unitField, ulpExp]
  omega

/-- The word of the root: its number is the rounded one. -/
theorem sqrtPositive_word {a : W64} (hz : isZero a = false) :
    isFinite (sqrtPositive a) = true ∧ numQ (sqrtPositive a) = rootSignificand a * 2 ^ rootField a / scale ∧
      fracField (sqrtPositive a) % 2 = rootSignificand a % 2 := by
  obtain ⟨i, hi⟩ := exists_two_zpow_rootUlp hz
  have hround := roundedAt_rootBits hz hi
  have hlead := hround.lead_nat
  have hfield := rootField_le hz
  have hle := hround.le
  have hlt : rootField a * 2 ^ 52 + rootSignificand a < 2047 * 2 ^ 52 := by omega
  have hword : sqrtPositive a = ofSignMag false (rootField a * 2 ^ 52 + rootSignificand a) := by
    rw [sqrtPositive_eq, rnd, roundMag_of_pos (rootNum_pos hz)]
    exact congrArg _ (min_eq_left hlt.le)
  rw [hword, numQ_ofSignMag false hle hlead (by omega), fracField_ofSignMag false (by omega)]
  refine ⟨isFinite_ofSignMag false hlt, ?_, by omega⟩
  rw [signQ, if_neg Bool.false_ne_true, one_mul]

theorem numSqrt_of_isFinite {a : W64} (ha : isFinite a = true) (hz : isZero a = false) (hs : signBit a = false) :
    numSqrt a = .word (sqrtPositive a) := by
  simp [numSqrt, isNaN_of_isFinite ha, hz, hs, isInf_of_isFinite ha]

/-- The nearest word to the real root, ties to even. -/
theorem numSqrt_nearest {a : W64} (ha : isFinite a = true) (hz : isZero a = false) (hs : signBit a = false) :
    ∃ w, numSqrt a = .word w ∧ isFinite w = true ∧
      (∀ v, isFinite v = true →
        |((numQ w : ℚ) : ℝ) - Real.sqrt (numQ a : ℚ)| ≤ |((numQ v : ℚ) : ℝ) - Real.sqrt (numQ a : ℚ)|) ∧
      (∀ v, isFinite v = true → numQ v ≠ numQ w →
        |((numQ v : ℚ) : ℝ) - Real.sqrt (numQ a : ℚ)| = |((numQ w : ℚ) : ℝ) - Real.sqrt (numQ a : ℚ)| →
        fracField w % 2 = 0) := by
  obtain ⟨hfin, hnum, hfrac⟩ := sqrtPositive_word hz
  obtain ⟨y, hy, hround, hroot⟩ := roundedAt_sqrt hz hs
  refine ⟨_, numSqrt_of_isFinite ha hz hs, hfin, ?_⟩
  rw [hfrac, ← hroot]
  exact ⟨fun v _ => (hround.nearest_real hy hnum v).1, fun v _ => (hround.nearest_real hy hnum v).2⟩

/-! ## The special operands -/

theorem numSqrt_of_isNaN {a : W64} (h : isNaN a = true) : numSqrt a = .nan := by
  rw [numSqrt, if_pos h]

theorem numSqrt_of_isZero {a : W64} (h : isZero a = true) : numSqrt a = .word a := by
  simp [numSqrt, h, isNaN_of_isFinite (isFinite_of_isZero h)]

theorem numSqrt_of_negative {a : W64} (hz : isZero a = false) (hn : isNaN a = false) (hs : signBit a = true) :
    numSqrt a = .nan := by
  simp [numSqrt, hz, hn, hs]

theorem numSqrt_of_isInf {a : W64} (h : isInf a = true) (hs : signBit a = false) : numSqrt a = .word a := by
  simp [numSqrt, h, hs, isNaN_of_isInf h, isZero_of_isInf h]

/-- Settles O28: the special operands, and the real root rounded by way of the integer root. -/
theorem sqrtRoundsOnce : Obligations.SqrtRoundsOnce :=
  ⟨fun _ => numSqrt_of_isNaN, fun _ => numSqrt_of_isZero, fun _ => numSqrt_of_negative,
    fun _ => numSqrt_of_isInf, fun _ => numSqrt_nearest⟩

end Sys2Proof.Machine
end

section
/-! PROOFS. The Bitwise instructions on integers (spec/41_bitwise.md R150 to R156): the operations bit by bit, the
shifts, which the model computes with the count cut at 1024, and a statement about their template. -/

namespace Sys2Proof.Machine

open Sys2Proof.Spec

/-! ## AND, OR and XOR of integers, bit by bit (R150) -/

/-- The model takes away from `m` the bits it shares with `n`; Mathlib's name for what is left is `ldiff`. -/
theorem xor_and_eq_ldiff (m n : Nat) : m ^^^ (m &&& n) = Nat.ldiff m n := by
  refine Nat.eq_of_testBit_eq fun k => ?_
  rw [Nat.testBit_xor, Nat.testBit_and, Nat.testBit_ldiff]
  cases m.testBit k <;> simp

theorem intAnd_eq_land : ∀ m n, intAnd m n = m.land n
  | .ofNat _, .ofNat _ => rfl
  | .ofNat m, .negSucc n => congrArg Int.ofNat (xor_and_eq_ldiff m n)
  | .negSucc m, .ofNat n => congrArg Int.ofNat (xor_and_eq_ldiff n m)
  | .negSucc _, .negSucc _ => rfl

theorem intOr_eq_lor : ∀ m n, intOr m n = m.lor n
  | .ofNat _, .ofNat _ => rfl
  | .ofNat m, .negSucc n => congrArg Int.negSucc (xor_and_eq_ldiff n m)
  | .negSucc m, .ofNat n => congrArg Int.negSucc (xor_and_eq_ldiff m n)
  | .negSucc _, .negSucc _ => rfl

theorem intXor_eq_xor (m n : Int) : intXor m n = m.xor n := by
  cases m <;> cases n <;> rfl

theorem testBit_intAnd (m n : Int) (k : Nat) : (intAnd m n).testBit k = (m.testBit k && n.testBit k) := by
  rw [intAnd_eq_land, Int.testBit_land]

theorem testBit_intOr (m n : Int) (k : Nat) : (intOr m n).testBit k = (m.testBit k || n.testBit k) := by
  rw [intOr_eq_lor, Int.testBit_lor]

theorem testBit_intXor (m n : Int) (k : Nat) : (intXor m n).testBit k = (m.testBit k ^^ n.testBit k) := by
  rw [intXor_eq_xor, Int.testBit_lxor]

/-! ## The shifts (R150, R155, R156) -/

/-- Past the finite numbers, the sign decides the word. -/
theorem roundsTo_unique_of_overflow {p q : ℚ} {v w : W64} (hv : RoundsTo p v) (hw : RoundsTo q w)
    (hp : 2 ^ 1024 - 2 ^ 970 ≤ |p|) (hq : 2 ^ 1024 - 2 ^ 970 ≤ |q|) (hsign : p < 0 ↔ q < 0) : v = w := by
  obtain ⟨hvinf, hvsign⟩ := hv.2 hp
  obtain ⟨hwinf, hwsign⟩ := hw.2 hq
  obtain ⟨hve, hvf⟩ := (isInf_iff v).1 hvinf
  obtain ⟨hwe, hwf⟩ := (isInf_iff w).1 hwinf
  exact eq_of_fields_eq (Bool.eq_iff_iff.2 (hvsign.trans (hsign.trans hwsign.symm))) (hve.trans hwe.symm)
    (hvf.trans hwf.symm)

/-- A non-zero integer shifted left by 1024 or more is past every finite number. -/
theorem overflow_le_abs_mul_two_pow {m : Int} (hm : m ≠ 0) {k : Nat} (hk : 1024 ≤ k) :
    (2 ^ 1024 - 2 ^ 970 : ℚ) ≤ |((m * 2 ^ k : Int) : ℚ)| := by
  have hone : (1 : ℚ) ≤ |(m : ℚ)| := by exact_mod_cast Int.one_le_abs hm
  calc (2 ^ 1024 - 2 ^ 970 : ℚ) ≤ 2 ^ 1024 := sub_le_self _ (by positivity)
    _ ≤ 2 ^ k := pow_le_pow_right₀ one_le_two hk
    _ ≤ |(m : ℚ)| * 2 ^ k := le_mul_of_one_le_left (by positivity) hone
    _ = |((m * 2 ^ k : Int) : ℚ)| := by
      rw [Int.cast_mul, Int.cast_pow, Int.cast_ofNat, abs_mul, abs_of_pos (a := 2 ^ k) (by positivity)]

theorem mul_two_pow_neg_iff (m : Int) (k : Nat) : ((m * 2 ^ k : Int) : ℚ) < 0 ↔ m < 0 := by
  have h := mul_lt_mul_iff_of_pos_right (b := m) (c := 0) (pow_pos (two_pos (α := Int)) k)
  rwa [zero_mul, ← Int.cast_lt_zero (R := ℚ)] at h

/-- Cutting the count of SHL at 1024 does not change the word. -/
theorem shlWord_eq (m n : Int) : shlWord m n = ofInt (m * 2 ^ n.toNat) := by
  rcases le_or_gt n 1024 with hle | hgt
  · rw [shlWord, min_eq_left hle]
  rcases eq_or_ne m 0 with rfl | hm
  · rw [shlWord, zero_mul, zero_mul]
  · rw [shlWord, min_eq_right hgt.le]
    refine roundsTo_unique_of_overflow (roundsTo_ofInt _) (roundsTo_ofInt _)
      (overflow_le_abs_mul_two_pow hm le_rfl) (overflow_le_abs_mul_two_pow hm (by omega)) ?_
    rw [mul_two_pow_neg_iff, mul_two_pow_neg_iff]

theorem floor_div_two_pow (m : Int) (k : Nat) : ⌊(m : ℚ) / 2 ^ k⌋ = m.fdiv (2 ^ k) := by
  rw [← floor_intCast_div, Int.cast_pow, Int.cast_ofNat]

/-- Of an integer shifted right by its length or more, only copies of the sign are left: 0 or -1. -/
theorem floor_div_two_pow_of_abs_lt {m : Int} {k : Nat} (h : |m| < 2 ^ k) :
    ⌊(m : ℚ) / 2 ^ k⌋ = if m < 0 then -1 else 0 := by
  obtain ⟨hlow, hupp⟩ := abs_lt.1 h
  have hpos : (0 : Int) ≤ 2 ^ k := by positivity
  rw [floor_div_two_pow, Int.fdiv_eq_ediv_of_nonneg _ hpos]
  split
  · next hneg => exact Int.ediv_eq_neg_one_of_neg_of_le hneg (by omega)
  · next hnonneg => exact Int.ediv_eq_zero_of_lt (not_lt.1 hnonneg) hupp

theorem abs_lt_of_toInt {a : W64} {m : Int} (h : toInt a = some m) : |m| < 2 ^ 1024 := by
  obtain ⟨hfin, hnum⟩ := (toInt_eq_some_iff a m).1 h
  rw [← Int.cast_lt (R := ℚ), Int.cast_abs, ← hnum, Int.cast_pow, Int.cast_ofNat]
  exact (abs_numQ_lt_of_isFinite hfin).trans (sub_lt_self _ (by positivity))

/-- Cutting the count of SHR at 1024 does not change the quotient of an operand. -/
theorem shrWord_eq {m : Int} (hm : |m| < 2 ^ 1024) (n : Int) :
    shrWord m n = ofInt ⌊(m : ℚ) / 2 ^ n.toNat⌋ := by
  rw [shrWord, ← floor_div_two_pow]
  rcases le_or_gt n 1024 with hle | hgt
  · rw [min_eq_left hle]
  · have hlong : |m| < 2 ^ n.toNat := hm.trans_le (pow_le_pow_right₀ one_le_two (by omega))
    rw [min_eq_right hgt.le, floor_div_two_pow_of_abs_lt hlong]
    exact congrArg ofInt (floor_div_two_pow_of_abs_lt hm)

/-! ## Functions of words that compute an integer operation (R150) -/

/-- `f` answers `ofInt` of the operation `g` on two integers it allows, and nothing on other operands. -/
structure ComputesInts (f : W64 → W64 → Option W64) (g : IntOp) : Prop where
  /-- Where the operation has a value, `f` answers it. -/
  value_eq : ∀ {a b m n}, toInt a = some m → toInt b = some n → g.allowed n → f a b = some (ofInt (g.value m n))
  /-- Elsewhere it has no answer. -/
  undefined : ∀ {a b}, (toInt a = none ∨ toInt b = none ∨ ∃ n, toInt b = some n ∧ ¬ g.allowed n) → f a b = none

theorem computesInts_onInts (f : Int → Int → Int) :
    ComputesInts (onInts fun m n => ofInt (f m n)) ⟨f, fun _ => True⟩ where
  value_eq ha hb _ := by simp only [onInts, ha, hb]
  undefined {a b} h := by
    rcases h with ha | hb | ⟨n, -, hn⟩
    · simp only [onInts, ha]
    · simp only [onInts, hb]
      cases toInt a <;> rfl
    · exact absurd trivial hn

/-- A shift is defined for the counts from 0 on. -/
theorem computesInts_onShift {f : Int → Int → W64} {g : Int → Int → Int}
    (h : ∀ {a m}, toInt a = some m → ∀ n, f m n = ofInt (g m n)) :
    ComputesInts (onShift f) ⟨g, fun n => 0 ≤ n⟩ where
  value_eq ha hb hn := by simp only [onShift, ha, hb, if_neg (not_lt.2 hn), h ha]
  undefined {a b} hbad := by
    rcases hbad with ha | hb | ⟨n, hb, hn⟩
    · simp only [onShift, ha]
    · simp only [onShift, hb]
      cases toInt a <;> rfl
    · cases ha : toInt a with
      | none => simp only [onShift, ha]
      | some m => simp only [onShift, ha, hb, if_pos (not_le.1 hn)]

/-! ## The templates on valid registers -/

section bitwiseTemplates

variable {s : State} {x y : RegNum} {d r : Reg} {w : W64}

theorem bitwiseRR_ok {f : W64 → W64 → Option W64} (hd : regOf x = some d) (hr : regOf y = some r)
    (hw : f (s.reg d) (s.reg r) = some w) : bitwiseRR f x y s = .next (s.setReg d w).advance := by
  simp [bitwiseRR, bitwiseResult, opreg_ok.2 hd, opreg_ok.2 hr, hw]

theorem bitwiseRR_fault {f : W64 → W64 → Option W64} (hd : regOf x = some d) (hr : regOf y = some r)
    (hw : f (s.reg d) (s.reg r) = none) : bitwiseRR f x y s = .fault .bitwiseOperandNotInteger := by
  simp [bitwiseRR, bitwiseResult, opreg_ok.2 hd, opreg_ok.2 hr, hw]

theorem execNot_ok {m : Int} (hd : regOf x = some d) (hm : toInt (s.reg d) = some m) :
    execNot x s = .next (s.setReg d (ofInt (-m - 1))).advance := by
  simp [execNot, numNot, bitwiseResult, opreg_ok.2 hd, hm]

theorem execNot_fault (hd : regOf x = some d) (hm : toInt (s.reg d) = none) :
    execNot x s = .fault .bitwiseOperandNotInteger := by
  simp [execNot, numNot, bitwiseResult, opreg_ok.2 hd, hm]

end bitwiseTemplates

theorem bitwiseRR_of_exec {op : Nat} {mk : RegNum → RegNum → Instr} {f : W64 → W64 → Option W64} {g : IntOp}
    (hdec : ∀ first second, decodeFields op first second = some (mk (regInFirst first) (regInSecond second)))
    (hexec : ∀ x y s, exec (mk x y) s = bitwiseRR f x y s) (hf : ComputesInts f g) : BitwiseRR op mk g := by
  refine ⟨encoded_of_decodeFields hdec, fun s x y h => ?_, fun s x y d r hd hr =>
    ⟨fun hbad => ?_, fun m n hm hn hallowed => ?_⟩⟩
  · rw [hexec]
    exact raises_of_checks_two (exists_mem_pair_regOf_none h)
  · exact (hexec x y s).trans (bitwiseRR_fault hd hr (hf.undefined hbad))
  · exact (hexec x y s).trans (bitwiseRR_ok hd hr (hf.value_eq hm hn hallowed))

/-- Settles O38: the operations bit by bit, the five instructions of template `RR`, and NOT. -/
theorem bitwiseInstructions : Obligations.BitwiseInstructions := by
  refine ⟨fun m n k => ⟨testBit_intAnd m n k, testBit_intOr m n k, testBit_intXor m n k⟩,
    bitwiseRR_of_exec (fun _ _ => rfl) (fun _ _ _ => rfl) (computesInts_onInts intAnd),
    bitwiseRR_of_exec (fun _ _ => rfl) (fun _ _ _ => rfl) (computesInts_onInts intOr),
    bitwiseRR_of_exec (fun _ _ => rfl) (fun _ _ _ => rfl) (computesInts_onInts intXor),
    bitwiseRR_of_exec (fun _ _ => rfl) (fun _ _ _ => rfl) (computesInts_onShift fun _ => shlWord_eq _),
    bitwiseRR_of_exec (fun _ _ => rfl) (fun _ _ _ => rfl)
      (computesInts_onShift fun ha => shrWord_eq (abs_lt_of_toInt ha)),
    encoded_of_decodeFields fun _ _ => rfl, fun s x => ⟨fun hx => ?_, fun d hd => ⟨?_, fun m => ?_⟩⟩⟩
  · exact exec_raises_of_invalid (exists_mem_singleton_regOf_none hx)
  · exact execNot_fault hd
  · exact execNot_ok hd

end Sys2Proof.Machine
end

section
/-! PROOFS. Where an address form, an access to memory and a stack operation stop (spec/20_memory.md R55, R56,
spec/43_stack.md R190, R191). Each stops with MemoryOutOfBounds; Laws/Ops.lean says when each answers. -/

namespace Sys2Proof.Machine

open Sys2Proof.Spec

variable {s : State} {w : W64} {a top : Int}

theorem settle_memoryOutOfBounds (s : State) : settle s (.error (.raise .memoryOutOfBounds)) = raises s 2 := rfl

/-! ## Addresses (R55, R58, R165) -/

theorem addrOf_of_none (h : toInt w = none) : addrOf w = .error (.raise .memoryOutOfBounds) := by
  simp only [addrOf, h]

theorem effective_eq_addressOf (ty : AddrType) (s : State) (k : Int) : effective ty s k = addressOf ty s k := by
  cases ty <;> rfl

theorem target_of_none {ty : AddrType} {r : Reg} (h : toInt (s.reg r) = none) :
    target ty s r = .error (.raise .memoryOutOfBounds) := by
  rw [target, addrOf_of_none h, act_error_bind]

theorem target_of_some {ty : AddrType} {r : Reg} {k : Int} (h : toInt (s.reg r) = some k) :
    target ty s r = .ok (addressOf ty s k) :=
  target_ok.2 ⟨k, h, (effective_eq_addressOf ty s k).symm⟩

/-! ## Memory (R56) -/

theorem memRead_of_not_inMem (h : ¬ InMem s a) : memRead s a = .error (.raise .memoryOutOfBounds) :=
  if_neg (mt (inBounds_iff s a).1 h)

theorem memWrite_of_not_inMem (h : ¬ InMem s a) : memWrite s a w = .error (.raise .memoryOutOfBounds) :=
  if_neg (mt (inBounds_iff s a).1 h)

theorem storesOnly_setCell (s : State) (a : Int) (w : W64) : StoresOnly s (s.setCell a.toNat w) a w :=
  ⟨setCell_cell_self s _ w, fun _ hne => setCell_cell_ne s w hne⟩

/-- With at most 2^53 cells, the address of a cell and the one after it are exact (R4, R10). -/
theorem toInt_ofInt_of_inMem (h : InMem s a) (hsize : s.memSize ≤ 2 ^ 53) :
    toInt (ofInt a) = some a ∧ toInt (ofInt (a + 1)) = some (a + 1) := by
  obtain ⟨hlow, hupp⟩ := h
  constructor
  all_goals
    refine toInt_ofInt (abs_le.2 ⟨?_, ?_⟩)
    all_goals omega

/-! ## The stack (R190, R191) -/

theorem push_of_none (h : toInt (s.reg .rsp) = none) : push s w = .error (.raise .memoryOutOfBounds) := by
  rw [push, addrOf_of_none h, act_error_bind]

theorem push_of_not_inMem (htop : toInt (s.reg .rsp) = some top) (h : ¬ InMem s (top - 1)) :
    push s w = .error (.raise .memoryOutOfBounds) := by
  rw [push, addrOf_ok.2 htop, act_ok_bind, memWrite_of_not_inMem h, act_error_bind]

theorem push_of_inMem (htop : toInt (s.reg .rsp) = some top) (h : InMem s (top - 1)) :
    push s w = .ok ((s.setCell (top - 1).toNat w).setReg .rsp (ofInt (top - 1))) :=
  push_ok.2 ⟨top, htop, inBounds_of_inMem h, rfl⟩

theorem peek_of_none (h : toInt (s.reg .rsp) = none) : peek s = .error (.raise .memoryOutOfBounds) := by
  rw [peek, addrOf_of_none h, act_error_bind]

theorem peek_of_not_inMem (htop : toInt (s.reg .rsp) = some top) (h : ¬ InMem s top) :
    peek s = .error (.raise .memoryOutOfBounds) := by
  rw [peek, addrOf_ok.2 htop, act_ok_bind, memRead_of_not_inMem h, act_error_bind]

theorem peek_of_cell (htop : toInt (s.reg .rsp) = some top) (h : InMem s top) (hw : s.cell top.toNat = some w) :
    peek s = .ok (top, w) :=
  peek_ok.2 ⟨htop, inBounds_of_inMem h, hw⟩

end Sys2Proof.Machine
end

section
/-! PROOFS. The control-flow instructions (spec/42_control_flow.md R165 to R182): a statement about the body of every
jump, of which a jump is an opcode and a condition, and one about the popped address of RET and IRET. -/

namespace Sys2Proof.Machine

open Sys2Proof.Spec

variable {s : State} {ty : AddrType} {tgt : RegNum} {r : Reg} {top : Int}

/-! ## Jumps (R166, R171 to R182) -/

theorem typeSelector : TypeSelector := by
  intro first
  have hzero : first = 0#16 ↔ first.toNat = 0 := BitVec.toNat_eq
  rw [typeInFirst, ← hzero]
  split
  · next h => simp [h]
  · next h => simp [h]

theorem jumpIf_not_taken (hr : regOf tgt = some r) : jumpIf false ty tgt s = .next s.advance := by
  simp [jumpIf, opreg_ok.2 hr]

theorem jumpIf_taken_of_none (hr : regOf tgt = some r) (hk : toInt (s.reg r) = none) :
    jumpIf true ty tgt s = raises s 2 := by
  rw [jumpIf, opreg_ok.2 hr, act_ok_bind, if_pos rfl, target_of_none hk, act_error_bind, settle_memoryOutOfBounds]

theorem jumpIf_taken {k : Int} (hr : regOf tgt = some r) (hk : toInt (s.reg r) = some k) :
    jumpIf true ty tgt s = .next (s.setPc (addressOf ty s k)) := by
  simp [jumpIf, opreg_ok.2 hr, target_of_some hk]

theorem jumpWhen_of_exec {op : Nat} {mk : AddrType → RegNum → Instr} {cond : State → Bool}
    (hdec : ∀ first second, decodeFields op first second = some (mk (typeInFirst first) (regInSecond second)))
    (hexec : ∀ ty tgt s, exec (mk ty tgt) s = jumpIf (cond s) ty tgt s) : JumpWhen op mk cond := by
  refine ⟨encoded_of_decodeFields hdec, fun s ty tgt => ⟨fun hr => ?_, fun r hr =>
    ⟨fun hcond => ?_, fun hcond hk => ?_, fun hcond k hk => ?_⟩⟩⟩
  · rw [hexec]
    exact raises_of_checks_one (exists_mem_singleton_regOf_none hr)
  · rw [hexec, hcond]
    exact jumpIf_not_taken hr
  · rw [hexec, hcond]
    exact jumpIf_taken_of_none hr hk
  · rw [hexec, hcond]
    exact jumpIf_taken hr hk

/-- Settles O39: both are the body of every jump, JMP always taken and LOOP by RCX. -/
theorem jumpAndLoop : Obligations.JumpAndLoop :=
  ⟨typeSelector, jumpWhen_of_exec (fun _ _ => rfl) (fun _ _ _ => rfl),
    jumpWhen_of_exec (fun _ _ => rfl) (fun _ _ _ => rfl)⟩

/-- Settles O40: the ten are the body of every jump, each with its condition on the flags. -/
theorem conditionalJumps : Obligations.ConditionalJumps := by
  refine ⟨typeSelector, ?_, ?_, ?_, ?_, ?_, ?_, ?_, ?_, ?_, ?_⟩
  all_goals exact jumpWhen_of_exec (fun _ _ => rfl) (fun _ _ _ => rfl)

/-! ## HLT and NOP (R169, R225) -/

/-- Settles O43: each is its one update of the state. -/
theorem haltAndNop : Obligations.HaltAndNop :=
  ⟨encoded_of_decodeFields fun _ _ => rfl, encoded_of_decodeFields fun _ _ => rfl, fun _ => ⟨rfl, rfl⟩⟩

/-! ## CALL (R167) -/

/-- Once its register is a valid one, CALL is the target, the push and the jump, in this order. -/
theorem execCall_of_regOf (hr : regOf tgt = some r) :
    execCall ty tgt s = settle s (target ty s r >>= fun a =>
      push s (ofInt (s.pc + 2)) >>= fun u => .ok (u.setPc a)) := by
  rw [execCall, opreg_ok.2 hr]
  rfl

theorem execCall_of_target_none (hr : regOf tgt = some r) (hk : toInt (s.reg r) = none) :
    execCall ty tgt s = raises s 2 := by
  rw [execCall_of_regOf hr, target_of_none hk, act_error_bind, settle_memoryOutOfBounds]

/-- A push that stops is MemoryOutOfBounds, whether or not the target before it does. -/
theorem execCall_of_push_stops (hr : regOf tgt = some r)
    (hp : push s (ofInt (s.pc + 2)) = .error (.raise .memoryOutOfBounds)) :
    execCall ty tgt s = raises s 2 := by
  cases hk : toInt (s.reg r) with
  | none => exact execCall_of_target_none hr hk
  | some k =>
    rw [execCall_of_regOf hr, target_of_some hk, act_ok_bind, hp, act_error_bind, settle_memoryOutOfBounds]

/-- The state after a CALL that completes from `s`, whose target is `a`. -/
def State.called (s : State) (top a : Int) : State :=
  ((s.setCell (top - 1).toNat (ofInt (s.pc + 2))).setReg .rsp (ofInt (top - 1))).setPc a

theorem execCall_ok {k : Int} (hr : regOf tgt = some r) (hk : toInt (s.reg r) = some k)
    (htop : toInt (s.reg .rsp) = some top) (hmem : InMem s (top - 1)) :
    execCall ty tgt s = .next (s.called top (addressOf ty s k)) := by
  rw [execCall_of_regOf hr, target_of_some hk, act_ok_bind, push_of_inMem htop hmem, act_ok_bind, settle_ok]
  rfl

theorem called_storesOnly (s : State) (top a : Int) :
    StoresOnly s (s.called top a) (top - 1) (ofInt (s.pc + 2)) := storesOnly_setCell s (top - 1) _

theorem called_reg_ne (s : State) (top a : Int) {q : Reg} (h : q ≠ .rsp) : (s.called top a).reg q = s.reg q :=
  setReg_reg_ne _ _ h

@[simp] theorem called_rsp (s : State) (top a : Int) : (s.called top a).reg .rsp = ofInt (top - 1) := rfl

/-- Settles O41: the target stops first, then the push; else the state is `called`. -/
theorem callPushesTheNextAddress : Obligations.CallPushesTheNextAddress := by
  refine ⟨typeSelector, encoded_of_decodeFields fun _ _ => rfl, fun s ty tgt => ⟨fun hr => ?_, fun r hr =>
    ⟨?_, fun k top hk htop => ⟨fun hout => ?_, fun hmem => ?_⟩⟩⟩⟩
  · exact exec_raises_of_invalid (exists_mem_singleton_regOf_none hr)
  · rintro (hk | hrsp)
    · exact execCall_of_target_none hr hk
    · exact execCall_of_push_stops hr (push_of_none hrsp)
  · exact execCall_of_push_stops hr (push_of_not_inMem htop hout)
  · exact ⟨_, execCall_ok hr hk htop hmem, called_storesOnly s top _, rfl⟩

/-! ## A popped address (R168, R170) -/

/-- RSP at cell `a`, and the core goes on at `k`. -/
def State.returnTo (s : State) (a k : Int) : State := (s.setReg .rsp (ofInt a)).setPc k

theorem returnTo_reg_ne (s : State) (a k : Int) {q : Reg} (h : q ≠ .rsp) : (s.returnTo a k).reg q = s.reg q :=
  setReg_reg_ne s _ h

@[simp] theorem returnTo_rsp (s : State) (a k : Int) : (s.returnTo a k).reg .rsp = ofInt a := rfl

/-- The outcome `o` of an instruction that pops an address from the stack of `s`: MemoryOutOfBounds where there is
no top cell or its word is no integer, else `f` of the top of the stack and the popped address. -/
def PopsAddress (s : State) (o : Out) (f : Int → Int → State) : Prop :=
  (toInt (s.reg .rsp) = none → o = raises s 2) ∧
  ∀ top, toInt (s.reg .rsp) = some top →
    (¬ InMem s top → o = raises s 2) ∧
    ∀ w, InMem s top → s.cell top.toNat = some w →
      (toInt w = none → o = raises s 2) ∧
      ∀ k, toInt w = some k → o = .next (f top k)

theorem PopsAddress.next {o : Out} {f : Int → Int → State} {w : W64} {k : Int} (h : PopsAddress s o f)
    (htop : toInt (s.reg .rsp) = some top) (hmem : InMem s top) (hw : s.cell top.toNat = some w)
    (hk : toInt w = some k) : o = .next (f top k) := by
  obtain ⟨-, hrsp⟩ := h
  obtain ⟨-, hcell⟩ := hrsp top htop
  obtain ⟨-, hword⟩ := hcell w hmem hw
  exact hword k hk

/-- RET past its count and IRET are of this form. -/
theorem popsAddress_settle (s : State) (f : Int → Int → State) :
    PopsAddress s (settle s (peek s >>= fun p => addrOf p.2 >>= fun k => .ok (f p.1 k))) f := by
  refine ⟨fun hrsp => ?_, fun top htop => ⟨fun hout => ?_, fun w hmem hw => ⟨fun hk => ?_, fun k hk => ?_⟩⟩⟩
  · rw [peek_of_none hrsp, act_error_bind, settle_memoryOutOfBounds]
  · rw [peek_of_not_inMem htop hout, act_error_bind, settle_memoryOutOfBounds]
  · rw [peek_of_cell htop hmem hw, act_ok_bind, addrOf_of_none hk, act_error_bind, settle_memoryOutOfBounds]
  · rw [peek_of_cell htop hmem hw, act_ok_bind, addrOf_ok.2 hk, act_ok_bind, settle_ok]

/-! ## RET (R168) -/

/-- RET's operand, with the code of no operand as a number (R92). -/
theorem retInFirst_eq (first : BitVec 16) :
    retInFirst first = if first.toNat = 0xFFFF then .noOperand else .inReg (some first.toNat) := by
  have hcode : first = retNoArgFirst ↔ first.toNat = 0xFFFF := BitVec.toNat_eq
  simp only [retInFirst, hcode, regInFirst]

/-- The operand `c` of RET stands for the count `n` (R92, R168). -/
def CountIs (s : State) (c : RetCount) (n : Int) : Prop :=
  c = .noOperand ∧ n = 0 ∨ ∃ r x, c = .inReg r ∧ regOf r = some x ∧ toInt (s.reg x) = some n ∧ 0 ≤ n

theorem CountIs.retCount_eq {c : RetCount} {n : Int} (h : CountIs s c n) :
    ∃ m : Nat, retCount s c = .ok m ∧ (m : Int) = n := by
  rcases h with ⟨rfl, rfl⟩ | ⟨r, x, rfl, hx, hn, hnonneg⟩
  · exact ⟨0, rfl, rfl⟩
  · obtain ⟨m, rfl⟩ := Int.eq_ofNat_of_zero_le hnonneg
    exact ⟨m, retCount_inReg_ok.2 ⟨x, hx, hn⟩, rfl⟩

theorem natOf_eq_none {n : Option Int} (h : n = none ∨ ∃ m, n = some m ∧ m < 0) : natOf n = none := by
  rcases h with rfl | ⟨m, rfl, hm⟩
  · rfl
  · obtain ⟨k, rfl⟩ := Int.eq_negSucc_of_lt_zero hm
    rfl

theorem execRet_of_invalid_count {p : RegNum} (hr : regOf p = some r)
    (h : toInt (s.reg r) = none ∨ ∃ n, toInt (s.reg r) = some n ∧ n < 0) :
    execRet (.inReg p) s = .fault .retCountInvalid := by
  simp [execRet, retCount, opreg_ok.2 hr, natOf_eq_none h]

/-- RET with a count pops the address, and RSP moves past it and the counted cells. -/
theorem execRet_popsAddress {c : RetCount} {n : Int} (h : CountIs s c n) :
    PopsAddress s (execRet c s) fun top k => s.returnTo (top + 1 + n) k := by
  obtain ⟨m, hm, rfl⟩ := h.retCount_eq
  rw [execRet, hm, act_ok_bind]
  exact popsAddress_settle s fun top k => s.returnTo (top + 1 + m) k

/-- Settles O42: the count stops RET before the stack is read; with a count, RET pops an address. -/
theorem retPopsAndSkips : Obligations.RetPopsAndSkips := by
  refine ⟨encoded_of_decodeFields fun first _ => congrArg (fun c => some (Instr.ret c)) (retInFirst_eq first),
    fun _ _ => execRet_raises_of_invalid, fun _ _ _ => execRet_of_invalid_count, fun _ _ _ => execRet_popsAddress⟩

/-! ## IRET (R170) -/

theorem execIret_popsAddress (s : State) :
    PopsAddress s (execIret s) fun top k => (s.returnTo (top + 1) k).setIsrDepth (s.isrDepth - 1) :=
  popsAddress_settle s fun top k => (s.returnTo (top + 1) k).setIsrDepth (s.isrDepth - 1)

/-- Settles O44: IRET pops an address; the subtraction of natural numbers keeps `isr_depth` from below 0. -/
theorem iretReturns : Obligations.IretReturns := by
  refine ⟨encoded_of_decodeFields fun _ _ => rfl, fun s => ?_⟩
  have hdepth : (if 0 < s.isrDepth then s.isrDepth - 1 else 0) = s.isrDepth - 1 := by
    split <;> omega
  rw [hdepth]
  exact execIret_popsAddress s

/-! ## CALL, then RET (R167, R168) -/

/-- A CALL that enters no handler has completed. -/
theorem execCall_next {t : State} (h : execCall ty tgt s = .next t) (hn : ¬ EntersHandler s t) :
    ∃ top a, toInt (s.reg .rsp) = some top ∧ InMem s (top - 1) ∧ t = s.called top a := by
  obtain ⟨r, -, h⟩ := act_bind_ok (ok_of_settle h hn)
  obtain ⟨a, -, h⟩ := act_bind_ok h
  obtain ⟨u, hu, h⟩ := act_bind_ok h
  obtain ⟨top, htop, hb, rfl⟩ := push_ok.1 hu
  cases h
  exact ⟨top, a, htop, (inBounds_iff _ _).1 hb, rfl⟩

/-- RET from the state after a CALL pops the address the CALL pushed, from the cell it pushed it to. -/
theorem execRet_called {a : Int} (hmem : InMem s (top - 1)) (hsize : s.memSize ≤ 2 ^ 53)
    (hpc : |s.pc + 2| ≤ 2 ^ 53) :
    execRet .noOperand (s.called top a) =
      .next ((s.called top a).returnTo top (s.pc + 2)) := by
  obtain ⟨hrsp, -⟩ := toInt_ofInt_of_inMem hmem hsize
  obtain ⟨hcell, -⟩ := called_storesOnly s top a
  have hret : execRet .noOperand (s.called top a) =
      .next ((s.called top a).returnTo (top - 1 + 1 + 0) (s.pc + 2)) :=
    (execRet_popsAddress (.inl ⟨rfl, rfl⟩)).next hrsp hmem hcell (toInt_ofInt hpc)
  rwa [add_zero, sub_add_cancel] at hret

/-- Settles O55: RET pops what CALL pushed; memory is small enough for RSP to be exact again. -/
theorem retUndoesCall : Obligations.RetUndoesCall := by
  intro s ty tgt t hsize hpc h hdepth
  have hn : ¬ EntersHandler s t := fun he => by
    have := he.isrDepth_eq
    omega
  obtain ⟨top, a, htop, hmem, rfl⟩ := execCall_next h hn
  obtain ⟨-, hrsp⟩ := toInt_ofInt_of_inMem hmem hsize
  rw [sub_add_cancel] at hrsp
  refine ⟨_, execRet_called hmem hsize hpc, rfl, rfl, ?_, fun r hne => ?_⟩
  · rw [returnTo_rsp, hrsp, htop]
  · rw [returnTo_reg_ne _ _ _ hne, called_reg_ne _ _ _ hne]

end Sys2Proof.Machine
end

section
/-! PROOFS. The Stack instructions (spec/43_stack.md R190 to R195): a statement about every push of a word and one about
every pop, of which PUSH, PUSHF, POP and POPF are uses; and RFLAGS, which its three flags determine. -/

namespace Sys2Proof.Machine

open Sys2Proof.Spec

variable {s : State} {w : W64} {top : Int}

/-! ## PUSH and PUSHF (R190, R192, R193) -/

/-- The body of PUSH and PUSHF, for the word `w`. -/
def pushWord (s : State) (w : W64) : Out := settle s (push s w >>= fun u => .ok u.advance)

theorem execPush_eq_pushWord {src : RegNum} {r : Reg} (hr : regOf src = some r) :
    execPush src s = pushWord s (s.reg r) := by
  rw [execPush, opreg_ok.2 hr]
  rfl

theorem execPushf_eq_pushWord (s : State) : execPushf s = pushWord s (ofInt (flagsNumber s.flags)) := rfl

theorem pushWord_of_push_stops (h : push s w = .error (.raise .memoryOutOfBounds)) :
    pushWord s w = raises s 2 := by
  rw [pushWord, h, act_error_bind, settle_memoryOutOfBounds]

/-- The state after a push of `w` that completes from `s`, whose stack begins at `top`. -/
def State.pushed (s : State) (top : Int) (w : W64) : State :=
  ((s.setCell (top - 1).toNat w).setReg .rsp (ofInt (top - 1))).advance

theorem pushWord_of_inMem (htop : toInt (s.reg .rsp) = some top) (hmem : InMem s (top - 1)) :
    pushWord s w = .next (s.pushed top w) := by
  rw [pushWord, push_of_inMem htop hmem, act_ok_bind, settle_ok]
  rfl

theorem pushed_storesOnly (s : State) (top : Int) (w : W64) : StoresOnly s (s.pushed top w) (top - 1) w :=
  storesOnly_setCell s (top - 1) w

@[simp] theorem pushed_rsp (s : State) (top : Int) (w : W64) : (s.pushed top w).reg .rsp = ofInt (top - 1) := rfl

theorem pushed_reg_ne (s : State) (top : Int) (w : W64) {q : Reg} (h : q ≠ .rsp) :
    (s.pushed top w).reg q = s.reg q := setReg_reg_ne _ _ h

/-- A push that enters no handler has completed. -/
theorem pushWord_next {t : State} (h : pushWord s w = .next t) (hn : ¬ EntersHandler s t) :
    ∃ top, toInt (s.reg .rsp) = some top ∧ InMem s (top - 1) ∧ t = s.pushed top w := by
  obtain ⟨u, hu, h⟩ := act_bind_ok (ok_of_settle h hn)
  obtain ⟨top, htop, hb, rfl⟩ := push_ok.1 hu
  cases h
  exact ⟨top, htop, (inBounds_iff _ _).1 hb, rfl⟩

/-- Settles O45: both instructions are the push of a word, which is read before the push. -/
theorem pushAndPushf : Obligations.PushAndPushf := by
  refine ⟨encoded_of_decodeFields fun _ _ => rfl, encoded_of_decodeFields fun _ _ => rfl,
    fun s src hr => exec_raises_of_invalid (exists_mem_singleton_regOf_none hr), fun s i w hi => ?_⟩
  have hexec : exec i s = pushWord s w := by
    rcases hi with ⟨rfl, rfl⟩ | ⟨src, r, rfl, hr, rfl⟩
    · exact execPushf_eq_pushWord s
    · exact execPush_eq_pushWord hr
  rw [hexec]
  refine ⟨fun hrsp => ?_, fun top htop => ⟨fun hout => ?_, fun hmem => ?_⟩⟩
  · exact pushWord_of_push_stops (push_of_none hrsp)
  · exact pushWord_of_push_stops (push_of_not_inMem htop hout)
  · exact ⟨_, pushWord_of_inMem htop hmem, pushed_storesOnly s top w, rfl⟩

/-! ## An instruction that begins with a pop (R191) -/

section settlePop

variable (k : W64 × State → Act State)

theorem settle_pop_of_none (h : toInt (s.reg .rsp) = none) : settle s (pop s >>= k) = raises s 2 := by
  rw [pop, peek_of_none h, act_error_bind, act_error_bind, settle_memoryOutOfBounds]

theorem settle_pop_of_not_inMem (htop : toInt (s.reg .rsp) = some top) (h : ¬ InMem s top) :
    settle s (pop s >>= k) = raises s 2 := by
  rw [pop, peek_of_not_inMem htop h, act_error_bind, act_error_bind, settle_memoryOutOfBounds]

theorem settle_pop_of_cell (htop : toInt (s.reg .rsp) = some top) (h : InMem s top)
    (hw : s.cell top.toNat = some w) :
    settle s (pop s >>= k) = settle s (k (w, s.setReg .rsp (ofInt (top + 1)))) := by
  rw [pop_ok.2 ⟨top, w, htop, inBounds_of_inMem h, hw, rfl⟩, act_ok_bind]

end settlePop

/-! ## POP (R194) -/

/-- Once its register is a valid one, POP is the pop, and then the write of the popped word. -/
theorem execPop_of_regOf {dst : RegNum} {d : Reg} (hd : regOf dst = some d) :
    execPop dst s = settle s (pop s >>= fun p => .ok (p.2.setReg d p.1).advance) := by
  rw [execPop, opreg_ok.2 hd]
  rfl

/-- Settles O46: the pop has moved RSP before the Destination is written. -/
theorem popReadsTheTop : Obligations.PopReadsTheTop := by
  refine ⟨encoded_of_decodeFields fun _ _ => rfl, fun s dst => ⟨fun hr =>
    exec_raises_of_invalid (exists_mem_singleton_regOf_none hr), fun d hd => ?_⟩⟩
  have hexec : exec (.pop dst) s = settle s (pop s >>= fun p => .ok (p.2.setReg d p.1).advance) :=
    execPop_of_regOf hd
  rw [hexec]
  refine ⟨settle_pop_of_none _, fun top htop => ⟨settle_pop_of_not_inMem _ htop, fun w hmem hw => ?_⟩⟩
  exact settle_pop_of_cell _ htop hmem hw

/-! ## POPF (R195) -/

/-- The state after a POPF that completes from `s`, whose stack begins at `top`, with the flags `f` popped. -/
def State.poppedInto (s : State) (top : Int) (f : Flags) : State :=
  ((s.setReg .rsp (ofInt (top + 1))).setFlags f).advance

theorem poppedInto_flags (s : State) (top : Int) (f : Flags) : (s.poppedInto top f).flags = f :=
  setFlags_flags (s.setReg .rsp (ofInt (top + 1))) f

theorem poppedInto_reserved (s : State) (top : Int) (f : Flags) : (s.poppedInto top f).rflags >>> 3 = 0#64 :=
  packFlags_reserved f

@[simp] theorem poppedInto_rsp (s : State) (top : Int) (f : Flags) :
    (s.poppedInto top f).reg .rsp = ofInt (top + 1) := rfl

theorem poppedInto_reg_ne (s : State) (top : Int) (f : Flags) {q : Reg} (h : q ≠ .rsp) :
    (s.poppedInto top f).reg q = s.reg q := setReg_reg_ne s _ h

theorem poppedFlags_of_nonneg {n : Nat} (h : toInt w = some (n : Int)) :
    poppedFlags w = .ok (flagsOfNumber n) := by
  simp only [poppedFlags, natOf_some.2 h]

theorem poppedFlags_of_invalid (h : toInt w = none ∨ ∃ n, toInt w = some n ∧ n < 0) :
    poppedFlags w = .error (.fault .popfNotFlagsWord) := by
  simp only [poppedFlags, natOf_eq_none h]

/-- Where there is a top cell, POPF is decided by its word. -/
theorem execPopf_of_cell (htop : toInt (s.reg .rsp) = some top) (hmem : InMem s top)
    (hw : s.cell top.toNat = some w) :
    execPopf s = settle s (poppedFlags w >>= fun f => .ok (s.poppedInto top f)) :=
  settle_pop_of_cell _ htop hmem hw

theorem execPopf_ok {n : Nat} (htop : toInt (s.reg .rsp) = some top) (hmem : InMem s top)
    (hw : s.cell top.toNat = some w) (hn : toInt w = some (n : Int)) :
    execPopf s = .next (s.poppedInto top (flagsOfNumber n)) := by
  rw [execPopf_of_cell htop hmem hw, poppedFlags_of_nonneg hn, act_ok_bind, settle_ok]

theorem execPopf_fault (htop : toInt (s.reg .rsp) = some top) (hmem : InMem s top)
    (hw : s.cell top.toNat = some w) (hn : toInt w = none ∨ ∃ n, toInt w = some n ∧ n < 0) :
    execPopf s = .fault .popfNotFlagsWord := by
  rw [execPopf_of_cell htop hmem hw, poppedFlags_of_invalid hn, act_error_bind, settle_fault]

/-- The flags of a number are its bits 0, 1 and 2, read off the integer. -/
theorem bits_of_flags_eq {t : State} {n : Nat} (h : t.flags = flagsOfNumber n) :
    (PF t = true ↔ (n : Int) % 2 = 1) ∧ (ZF t = true ↔ (n : Int) / 2 % 2 = 1) ∧
      (SF t = true ↔ (n : Int) / 4 % 2 = 1) := by
  have hpf : PF t = (n % 2 == 1) := congrArg Flags.pf h
  have hzf : ZF t = (n / 2 % 2 == 1) := congrArg Flags.zf h
  have hsf : SF t = (n / 4 % 2 == 1) := congrArg Flags.sf h
  rw [hpf, hzf, hsf]
  simp only [beq_iff_eq]
  omega

/-- Settles O47: POPF begins with a pop, and the popped word decides. -/
theorem popfTakesTheFlags : Obligations.PopfTakesTheFlags := by
  refine ⟨encoded_of_decodeFields fun _ _ => rfl, fun s => ⟨settle_pop_of_none _, fun top htop =>
    ⟨settle_pop_of_not_inMem _ htop, fun w hmem hw => ⟨execPopf_fault htop hmem hw, fun n hn hnonneg => ?_⟩⟩⟩⟩
  obtain ⟨m, rfl⟩ := Int.eq_ofNat_of_zero_le hnonneg
  obtain ⟨hpf, hzf, hsf⟩ := bits_of_flags_eq (poppedInto_flags s top (flagsOfNumber m))
  exact ⟨_, execPopf_ok htop hmem hw hn, rfl, hpf, hzf, hsf, poppedInto_reserved s top _⟩

/-! ## PUSHF, then POPF (R193, R195) -/

theorem getLsbD_of_reserved {v : W64} (h : v >>> 3 = 0#64) {j : Nat} (hj : 3 ≤ j) : v.getLsbD j = false := by
  have hbit := congrArg (fun u => BitVec.getLsbD u (j - 3)) h
  simpa [BitVec.getLsbD_ushiftRight, Nat.add_sub_cancel' hj] using hbit

/-- With the reserved bits 0, the flags determine RFLAGS (R27). -/
theorem rflags_eq_of_flags_eq {t : State} (hs : s.rflags >>> 3 = 0#64) (ht : t.rflags >>> 3 = 0#64)
    (h : s.flags = t.flags) : s.rflags = t.rflags := by
  refine BitVec.eq_of_getLsbD_eq fun j _ => ?_
  match j with
  | 0 => exact congrArg Flags.pf h
  | 1 => exact congrArg Flags.zf h
  | 2 => exact congrArg Flags.sf h
  | j + 3 => rw [getLsbD_of_reserved hs (by omega), getLsbD_of_reserved ht (by omega)]

theorem toInt_ofInt_flagsNumber (f : Flags) : toInt (ofInt (flagsNumber f)) = some (flagsNumber f : Int) := by
  have hpf := f.pf.toNat_le
  have hzf := f.zf.toNat_le
  have hsf := f.sf.toNat_le
  refine toInt_ofInt ?_
  rw [Nat.abs_cast, flagsNumber]
  omega

/-- POPF takes back the flags whose number is on top of the stack, whatever the flags are by then. -/
theorem execPopf_of_flagsNumber {f : Flags} (htop : toInt (s.reg .rsp) = some top) (hmem : InMem s top)
    (hw : s.cell top.toNat = some (ofInt (flagsNumber f))) : execPopf s = .next (s.poppedInto top f) := by
  rw [execPopf_ok htop hmem hw (toInt_ofInt_flagsNumber f), flagsOfNumber_flagsNumber]

/-- Settles O57: POPF pops the flags PUSHF pushed, and with the reserved bits 0 they are all of RFLAGS. -/
theorem popfUndoesPushf : Obligations.PopfUndoesPushf := by
  intro s t f hsize hreserved h hdepth
  have hn : ¬ EntersHandler s t := fun he => by
    have := he.isrDepth_eq
    omega
  obtain ⟨top, htop, hmem, rfl⟩ := pushWord_next h hn
  obtain ⟨hbelow, hrsp⟩ := toInt_ofInt_of_inMem hmem hsize
  obtain ⟨hcell, -⟩ := pushed_storesOnly s top (ofInt (flagsNumber s.flags))
  refine ⟨_, execPopf_of_flagsNumber hbelow hmem hcell, ?_, ?_, fun r hne => ?_⟩
  · exact rflags_eq_of_flags_eq (poppedInto_reserved _ _ _) hreserved (poppedInto_flags _ _ _)
  · rw [poppedInto_rsp, hrsp, sub_add_cancel, htop]
  · rw [poppedInto_reg_ne _ _ _ hne, setFlags_reg, pushed_reg_ne _ _ _ hne]

end Sys2Proof.Machine
end

section
/-! PROOFS. The Data instructions (spec/44_data.md R200 to R206): the state in which each of them completes, and where
an instruction that accesses the cell its address register names stops. -/

namespace Sys2Proof.Machine

open Sys2Proof.Spec

variable {s : State} {ty : AddrType} {x y : RegNum} {d r : Reg} {k : Int} {w : W64}

/-! ## MOV, SWP, LDI and RIP (R200, R201, R205, R206) -/

theorem execMov_of_regOf (hd : regOf x = some d) (hr : regOf y = some r) :
    execMov x y s = .next (s.setReg d (s.reg r)).advance := by
  rw [execMov, opreg_ok.2 hd, act_ok_bind, opreg_ok.2 hr, act_ok_bind, act_pure, settle_ok]

/-- `s` with the words of the registers `d` and `r` exchanged. -/
def State.swapped (s : State) (d r : Reg) : State := (s.setReg d (s.reg r)).setReg r (s.reg d)

/-- The first register is written first, so where the two are one register it keeps its word. -/
theorem swapped_reg_left (s : State) (d r : Reg) : (s.swapped d r).reg d = s.reg r := by
  rw [State.swapped, setReg_reg]
  split
  · next h => rw [h]
  · exact setReg_reg_self s d _

theorem swapped_reg_right (s : State) (d r : Reg) : (s.swapped d r).reg r = s.reg d := setReg_reg_self _ r _

theorem execSwp_of_regOf (hd : regOf x = some d) (hr : regOf y = some r) :
    execSwp x y s = .next (s.swapped d r).advance := by
  rw [execSwp, opreg_ok.2 hd, act_ok_bind, opreg_ok.2 hr, act_ok_bind, act_pure, settle_ok, State.swapped]

theorem execLdi_of_regOf (hd : regOf x = some d) : execLdi x w s = .next (s.setReg d w).advance := by
  rw [execLdi, opreg_ok.2 hd, act_ok_bind, act_pure, settle_ok]

theorem execRip_of_regOf (hd : regOf x = some d) : execRip x s = .next (s.setReg d (ofInt s.pc)).advance := by
  rw [execRip, opreg_ok.2 hd, act_ok_bind, act_pure, settle_ok]

/-- Settles O48: past the checks of their registers the four cannot stop. -/
theorem registerMoves : Obligations.RegisterMoves := by
  refine ⟨encoded_of_decodeFields fun _ _ => rfl, encoded_of_decodeFields fun _ _ => rfl,
    encoded_of_decodeFields fun _ _ => rfl, encoded_of_decodeFields fun _ _ => rfl,
    fun s x y h => ?_, fun s x imm h => ?_, fun s x y d r hd hr => ⟨?_, ?_⟩, fun s x imm d hd => ⟨?_, ?_⟩⟩
  · have hinvalid := exists_mem_pair_regOf_none h
    exact ⟨exec_raises_of_invalid hinvalid, exec_raises_of_invalid hinvalid⟩
  · have hinvalid := exists_mem_singleton_regOf_none h
    exact ⟨exec_raises_of_invalid hinvalid, exec_raises_of_invalid hinvalid⟩
  · exact execMov_of_regOf hd hr
  · exact ⟨_, execSwp_of_regOf hd hr, swapped_reg_left s d r, swapped_reg_right s d r, rfl⟩
  · exact execLdi_of_regOf hd
  · exact execRip_of_regOf hd

/-! ## An instruction that begins with the address a register holds (R55, R58) -/

theorem settle_target_of_none (f : Int → Act State) (hk : toInt (s.reg d) = none) :
    settle s (target ty s d >>= f) = raises s 2 := by
  rw [target_of_none hk, act_error_bind, settle_memoryOutOfBounds]

theorem settle_target_of_some (f : Int → Act State) (hk : toInt (s.reg d) = some k) :
    settle s (target ty s d >>= f) = settle s (f (addressOf ty s k)) := by
  rw [target_of_some hk, act_ok_bind]

/-! ## LOAD (R202) -/

/-- Once its register is a valid one, LOAD is the address, the read and the write of the register. -/
theorem execLoad_of_regOf (hd : regOf x = some d) :
    execLoad ty x s = settle s (target ty s d >>= fun a =>
      memRead s a >>= fun w => .ok (s.setReg d w).advance) := by
  rw [execLoad, opreg_ok.2 hd]
  rfl

theorem execLoad_of_not_inMem (hd : regOf x = some d) (hk : toInt (s.reg d) = some k)
    (h : ¬ InMem s (addressOf ty s k)) : execLoad ty x s = raises s 2 := by
  rw [execLoad_of_regOf hd, settle_target_of_some _ hk, memRead_of_not_inMem h, act_error_bind,
    settle_memoryOutOfBounds]

/-- Settles O49: the address stops LOAD first, then its bounds; else the known word of the cell is loaded. -/
theorem loadReadsOneCell : Obligations.LoadReadsOneCell := by
  refine ⟨typeSelector, encoded_of_decodeFields fun _ _ => rfl, fun s ty dst => ⟨fun hr => ?_, fun d hd =>
    ⟨fun hk => ?_, fun k hk => ⟨fun hout => ?_, fun w hmem hw => ?_⟩⟩⟩⟩
  · exact exec_raises_of_invalid (exists_mem_singleton_regOf_none hr)
  · exact (execLoad_of_regOf hd).trans (settle_target_of_none _ hk)
  · exact execLoad_of_not_inMem hd hk hout
  · rw [← effective_eq_addressOf] at hmem hw
    exact execLoad_of_cell hd hk (inBounds_of_inMem hmem) hw

/-! ## STRR and STRA (R203, R204) -/

/-- Once its registers are valid ones, a store is the address and the write of the cell. -/
theorem storeReg_of_regOf (hd : regOf x = some d) (hr : regOf y = some r) :
    storeReg ty x y s = settle s (target ty s d >>= fun a =>
      memWrite s a (s.reg r) >>= fun t => .ok t.advance) := by
  rw [storeReg, opreg_ok.2 hd, act_ok_bind, opreg_ok.2 hr]
  rfl

theorem storeReg_of_not_inMem (hd : regOf x = some d) (hr : regOf y = some r) (hk : toInt (s.reg d) = some k)
    (h : ¬ InMem s (addressOf ty s k)) : storeReg ty x y s = raises s 2 := by
  rw [storeReg_of_regOf hd hr, settle_target_of_some _ hk, memWrite_of_not_inMem h, act_error_bind,
    settle_memoryOutOfBounds]

theorem storeReg_of_inMem (hd : regOf x = some d) (hr : regOf y = some r) (hk : toInt (s.reg d) = some k)
    (h : InMem s (addressOf ty s k)) :
    storeReg ty x y s = .next (s.setCell (addressOf ty s k).toNat (s.reg r)).advance := by
  rw [storeReg_of_regOf hd hr, settle_target_of_some _ hk, memWrite_ok.2 ⟨inBounds_of_inMem h, rfl⟩, act_ok_bind,
    settle_ok]

/-- Settles O50: STRR and STRA are one store, of either address type. -/
theorem storesWriteOneCell : Obligations.StoresWriteOneCell := by
  refine ⟨encoded_of_decodeFields fun _ _ => rfl, encoded_of_decodeFields fun _ _ => rfl,
    fun s i ty addr src hi => ?_⟩
  have hexec : exec i s = storeReg ty addr src s := by
    rcases hi with ⟨rfl, rfl⟩ | ⟨rfl, rfl⟩
    · rfl
    · rfl
  rw [hexec]
  refine ⟨fun hr => ?_, fun d r hd hr => ⟨fun hk => ?_, fun k hk => ⟨fun hout => ?_, fun hmem => ?_⟩⟩⟩
  · exact raises_of_checks_two (exists_mem_pair_regOf_none hr)
  · exact (storeReg_of_regOf hd hr).trans (settle_target_of_none _ hk)
  · exact storeReg_of_not_inMem hd hr hk hout
  · exact ⟨_, storeReg_of_inMem hd hr hk hmem, storesOnly_setCell s _ _, rfl⟩

end Sys2Proof.Machine
end

section
/-! PROOFS. The Interrupt instructions (spec/45_interrupt.md R215 to R218): which vectors are entries of the table, and
the state in which each instruction completes. -/

namespace Sys2Proof.Machine

open Sys2Proof.Spec

variable {s : State} {ty : AddrType} {x : RegNum} {r : Reg} {k top : Int} {v : BitVec 16}

/-! ## SETISRR and SETISRA (R215 to R217) -/

theorem vectorField_of_le (hv : v.toNat ≤ 511) : vectorField v = .ok v.toNat :=
  vectorField_ok.2 ⟨rfl, Nat.lt_succ_of_le hv⟩

theorem vectorField_of_gt (hv : 511 < v.toNat) : vectorField v = .error (.fault .vectorOutOfRange) :=
  if_neg (Nat.not_lt.2 hv)

/-- Once its register is a valid one, the instruction is the check of its vector, the address and the entry. -/
theorem setHandler_of_regOf (hr : regOf x = some r) :
    setHandler ty v x s = settle s (vectorField v >>= fun n =>
      target ty s r >>= fun a => .ok (s.setVector n a).advance) := by
  rw [setHandler, opreg_ok.2 hr]
  rfl

/-- The vector is checked before the address, which may be none. -/
theorem setHandler_of_gt (hr : regOf x = some r) (hv : 511 < v.toNat) :
    setHandler ty v x s = .fault .vectorOutOfRange := by
  rw [setHandler_of_regOf hr, vectorField_of_gt hv, act_error_bind, settle_fault]

theorem setHandler_of_none (hr : regOf x = some r) (hv : v.toNat ≤ 511) (hk : toInt (s.reg r) = none) :
    setHandler ty v x s = raises s 2 := by
  rw [setHandler_of_regOf hr, vectorField_of_le hv, act_ok_bind, settle_target_of_none _ hk]

theorem setHandler_of_some (hr : regOf x = some r) (hv : v.toNat ≤ 511) (hk : toInt (s.reg r) = some k) :
    setHandler ty v x s = .next (s.setVector v.toNat (addressOf ty s k)).advance := by
  rw [setHandler_of_regOf hr, vectorField_of_le hv, act_ok_bind, settle_target_of_some _ hk, settle_ok]

theorem setVector_vector_self (s : State) (n : Nat) (a : Int) : (s.setVector n a).vector n = some a := by
  rw [setVector_vector, if_pos rfl]

theorem setVector_vector_ne (s : State) (a : Int) {n u : Nat} (h : u ≠ n) :
    (s.setVector n a).vector u = s.vector u := by
  rw [setVector_vector, if_neg h]

/-- Settles O51: SETISRR and SETISRA are one write of an entry, of either address type. -/
theorem setIsrWritesOneEntry : Obligations.SetIsrWritesOneEntry := by
  refine ⟨encoded_of_decodeFields fun _ _ => rfl, encoded_of_decodeFields fun _ _ => rfl,
    fun s i ty v addr hi => ?_⟩
  have hexec : exec i s = setHandler ty v addr s := by
    rcases hi with ⟨rfl, rfl⟩ | ⟨rfl, rfl⟩
    · rfl
    · rfl
  rw [hexec]
  refine ⟨fun hr => ?_, fun r hr => ⟨fun hv => ?_, fun hv hk => ?_, fun k hv hk => ?_⟩⟩
  · exact raises_of_checks_one (exists_mem_singleton_regOf_none hr)
  · exact setHandler_of_gt hr hv
  · exact setHandler_of_none hr hv hk
  · exact ⟨_, setHandler_of_some hr hv hk, rfl, setVector_vector_self s _ _,
      fun u hu => setVector_vector_ne s _ hu⟩

/-! ## INT (R215, R218) -/

theorem vectorOf_of_le {n : Nat} (hn : toInt (s.reg r) = some (n : Int)) (hle : n ≤ 511) : vectorOf s r = .ok n :=
  vectorOf_ok.2 ⟨hn, Nat.lt_succ_of_le hle⟩

/-- A word that holds no integer, a negative one and one above 511 are one model fault. -/
theorem vectorOf_of_invalid (h : ¬ ∃ n, toInt (s.reg r) = some n ∧ 0 ≤ n ∧ n ≤ 511) :
    vectorOf s r = .error (.fault .vectorOutOfRange) := by
  unfold vectorOf
  split
  · next n hn => exact if_neg fun hlt => h ⟨n, hn, n.cast_nonneg, Nat.cast_le.2 (Nat.le_of_lt_succ hlt)⟩
  · rfl

/-- Once its register is a valid one, INT is the vector and trap entry. -/
theorem execInt_of_regOf (hr : regOf x = some r) :
    execInt x s = settleWith s (vectorOf s r) fun n => trapEntry s n (s.pc + 2) := by
  rw [execInt, opreg_ok.2 hr]
  rfl

theorem execInt_of_invalid (hr : regOf x = some r) (h : ¬ ∃ n, toInt (s.reg r) = some n ∧ 0 ≤ n ∧ n ≤ 511) :
    execInt x s = .fault .vectorOutOfRange := by
  rw [execInt_of_regOf hr, vectorOf_of_invalid h, settleWith_fault]

theorem execInt_of_le {n : Nat} (hr : regOf x = some r) (hn : toInt (s.reg r) = some (n : Int)) (hle : n ≤ 511) :
    execInt x s = trapEntry s n (s.pc + 2) := by
  rw [execInt_of_regOf hr, vectorOf_of_le hn hle, settleWith_ok]

/-! ## A handler that is entered (R270) -/

theorem trapEntry_of_inMem {n : Nat} {handler : Int} (hset : s.vector n = some handler)
    (htop : toInt (s.reg .rsp) = some top) (hmem : InMem s (top - 1)) (ret : Int) :
    trapEntry s n ret = .next (s.enterHandler (top - 1) ret handler) :=
  trapEntry_next.2 ⟨handler, top, hset, htop, inBounds_of_inMem hmem, rfl⟩

theorem enterHandler_storesOnly (s : State) (a ret handler : Int) :
    StoresOnly s (s.enterHandler a ret handler) a (ofInt ret) :=
  storesOnly_setCell s a (ofInt ret)

/-- Settles O52: past the checks of its register and its vector, INT is trap entry with the next address. -/
theorem intEntersTheHandler : Obligations.IntEntersTheHandler := by
  refine ⟨encoded_of_decodeFields fun _ _ => rfl, fun s vec => ⟨fun hr => ?_, fun r hr => ⟨fun hinvalid => ?_,
    fun n hn hle => ?_⟩⟩⟩
  · exact exec_raises_of_invalid (exists_mem_singleton_regOf_none hr)
  · exact execInt_of_invalid hr hinvalid
  · have hexec : exec (.int vec) s = trapEntry s n (s.pc + 2) := execInt_of_le hr hn hle
    refine ⟨hexec, fun handler top hset htop hmem => ?_⟩
    exact ⟨_, hexec.trans (trapEntry_of_inMem hset htop hmem _), enterHandler_storesOnly s _ _ _, rfl⟩

end Sys2Proof.Machine
end

section
/-! PROOFS. The ports (spec/47_io.md R230 to R236): the move of a port's device and the transfers of IN and OUT are one
write of one port, and INR and OUTR read its flags. -/

namespace Sys2Proof.Machine

open Sys2Proof.Spec

variable {s u : State} {x y : RegNum} {d q : Reg} {p : Nat}

/-! ## The devices (R236) -/

/-- Using up a turn changes no port. -/
theorem port_of_moves {e : Turn} (h : Moves s e u) (o : Nat) : u.port o = s.port o := by rw [eq_of_moves h]; rfl

theorem step_of_moves {e : Turn} (h : Moves s e u) (he : e ≠ .core) : step s = .next (agentStep e u) := by
  change moveOf s.takeTurn.1 s.takeTurn.2 = .next (agentStep e u)
  rw [takeTurn_of_moves h, moveOf_agent he]

/-- The step of an agent that writes one port. -/
theorem step_writes_port {e : Turn} {v : Port} (hwf : Sparse.wf s.ports = true) (h : Moves s e u) (he : e ≠ .core)
    (hset : agentStep e u = u.setPort p v) :
    ∃ t, step s = .next t ∧ t = { u with ports := t.ports } ∧ t.port p = v ∧ ∀ o, o ≠ p → t.port o = s.port o := by
  have hu : Sparse.wf u.ports = true := by rw [eq_of_moves h]; exact hwf
  refine ⟨u.setPort p v, hset ▸ step_of_moves h he, rfl, setPort_port_self hu p v, fun o ho => ?_⟩
  rw [setPort_port_ne u v ho, port_of_moves h]

/-- Settles O11: each of the four moves of a device is one write of its port. -/
theorem deviceStepChangesItsPortOnly : Obligations.DeviceStepChangesItsPortOnly := by
  intro s u p w hwf e he hm
  have hport : u.port p.val = s.port p.val := port_of_moves hm p.val
  rw [← hport] at he
  simp only [List.mem_cons, List.not_mem_nil, or_false] at he
  rcases he with rfl | rfl | rfl | rfl <;> exact step_writes_port hwf hm nofun rfl

/-! ## The port number and the ready check (R230, R235) -/

theorem portOf_of_le (hp : toInt (s.reg q) = some (p : Int)) (hle : p ≤ 127) : portOf s q = .ok p :=
  portOf_ok.2 ⟨hp, Nat.lt_succ_of_le hle⟩

/-- A word that holds no integer, a negative one and one above 127 are one exception. -/
theorem portOf_of_invalid (h : ¬ ∃ n, toInt (s.reg q) = some n ∧ 0 ≤ n ∧ n ≤ 127) :
    portOf s q = .error (.raise .ioInvalidPort) := by
  unfold portOf
  split
  · next n hn => exact if_neg fun hlt => h ⟨n, hn, n.cast_nonneg, Nat.cast_le.2 (Nat.le_of_lt_succ hlt)⟩
  · rfl

section operands

variable (f : Reg → Nat → Act State)

/-- An IO instruction has checked its two Register parameters when it reads the port number. -/
theorem settle_portOperands_of_invalid (hd : regOf x = some d) (hq : regOf y = some q)
    (h : ¬ ∃ n, toInt (s.reg q) = some n ∧ 0 ≤ n ∧ n ≤ 127) :
    settle s (opreg x >>= fun d => opreg y >>= fun q => portOf s q >>= f d) = raises s 5 := by
  rw [opreg_ok.2 hd, act_ok_bind, opreg_ok.2 hq, act_ok_bind, portOf_of_invalid h]
  rfl

theorem settle_portOperands_of_le (hd : regOf x = some d) (hq : regOf y = some q)
    (hp : toInt (s.reg q) = some (p : Int)) (hle : p ≤ 127) :
    settle s (opreg x >>= fun d => opreg y >>= fun q => portOf s q >>= f d) = settle s (f d p) := by
  rw [opreg_ok.2 hd, act_ok_bind, opreg_ok.2 hq, act_ok_bind, portOf_of_le hp hle, act_ok_bind]

end operands

theorem settle_readyCheck_not_ready (f : Unit → Act State) : settle s (readyCheck true >>= f) = raises s 4 := rfl

theorem settle_readyCheck_ready (f : Unit → Act State) : settle s (readyCheck false >>= f) = settle s (f ()) := rfl

/-! ## IN and OUT (R231, R232) -/

/-- `s` after IN: the inbound word of port `p` is in `d` and taken. -/
def State.portTaken (s : State) (d : Reg) (p : Nat) : State :=
  (s.setReg d (s.port p).inData).setPort p { s.port p with inReady := false }

/-- `s` after OUT: the word of `r` is the outbound word of port `p`. -/
def State.portGiven (s : State) (r : Reg) (p : Nat) : State :=
  s.setPort p { s.port p with outData := s.reg r, outReady := true }

section transfer

variable (hd : regOf x = some d) (hq : regOf y = some q) (hp : toInt (s.reg q) = some (p : Int)) (hle : p ≤ 127)

include hd hq hp hle

theorem execIn_of_le : execIn x y s =
    settle s (readyCheck (!(s.port p).inReady) >>= fun _ => .ok (s.portTaken d p).advance) :=
  settle_portOperands_of_le _ hd hq hp hle

theorem execOut_of_le : execOut x y s =
    settle s (readyCheck ((s.port p).outReady == outNotReadyWhen) >>= fun _ => .ok (s.portGiven d p).advance) :=
  settle_portOperands_of_le _ hd hq hp hle

theorem execIn_of_not_ready (hr : (s.port p).inReady = false) : execIn x y s = raises s 4 := by
  rw [execIn_of_le hd hq hp hle, hr]
  exact settle_readyCheck_not_ready _

theorem execIn_of_ready (hr : (s.port p).inReady = true) : execIn x y s = .next (s.portTaken d p).advance := by
  rw [execIn_of_le hd hq hp hle, hr]
  exact settle_readyCheck_ready _

theorem execOut_of_not_ready (hr : (s.port p).outReady = false) : execOut x y s = raises s 4 := by
  rw [execOut_of_le hd hq hp hle, hr]
  exact settle_readyCheck_not_ready _

theorem execOut_of_ready (hr : (s.port p).outReady = true) : execOut x y s = .next (s.portGiven d p).advance := by
  rw [execOut_of_le hd hq hp hle, hr]
  exact settle_readyCheck_ready _

end transfer

theorem portTaken_port_self (hwf : Sparse.wf s.ports = true) (d : Reg) (p : Nat) :
    (s.portTaken d p).port p = { s.port p with inReady := false } := setPort_port_self hwf p _

theorem portTaken_port_ne (s : State) (d : Reg) {o : Nat} (h : o ≠ p) : (s.portTaken d p).port o = s.port o :=
  setPort_port_ne _ _ h

theorem portGiven_port_self (hwf : Sparse.wf s.ports = true) (r : Reg) (p : Nat) :
    (s.portGiven r p).port p = { s.port p with outData := s.reg r, outReady := true } := setPort_port_self hwf p _

theorem portGiven_port_ne (s : State) (r : Reg) {o : Nat} (h : o ≠ p) : (s.portGiven r p).port o = s.port o :=
  setPort_port_ne s _ h

/-- Settles O53: the registers stop IN and OUT first, then the port number, then the ready flag; else one port is
written. -/
theorem inAndOutMoveOneWord : Obligations.InAndOutMoveOneWord := by
  refine ⟨encoded_of_decodeFields fun _ _ => rfl, encoded_of_decodeFields fun _ _ => rfl,
    fun s x y h => ?_, fun s x y d q hd hq hinvalid => ⟨?_, ?_⟩,
    fun s x y d q p hwf hd hq hp hle => ⟨fun hr => ?_, fun hr => ?_, fun hr => ?_, fun hr => ?_⟩⟩
  · have hinvalid := exists_mem_pair_regOf_none h
    exact ⟨exec_raises_of_invalid hinvalid, exec_raises_of_invalid hinvalid⟩
  · exact settle_portOperands_of_invalid _ hd hq hinvalid
  · exact settle_portOperands_of_invalid _ hd hq hinvalid
  · exact execIn_of_not_ready hd hq hp hle hr
  · exact execOut_of_not_ready hd hq hp hle hr
  · exact ⟨_, execIn_of_ready hd hq hp hle hr, rfl, portTaken_port_self hwf d p,
      fun _ ho => portTaken_port_ne s d ho⟩
  · exact ⟨_, execOut_of_ready hd hq hp hle hr, rfl, portGiven_port_self hwf d p,
      fun _ ho => portGiven_port_ne s d ho⟩

/-! ## INR and OUTR (R233, R234) -/

theorem flagWord_eq (b : Bool) : flagWord b = if b then 0x3FF0000000000000#64 else 0#64 := by
  cases b
  · rfl
  · rfl

/-- Settles O54: past the checks of the registers and of the port number the two cannot stop. -/
theorem inrAndOutrReadTheFlags : Obligations.InrAndOutrReadTheFlags := by
  refine ⟨encoded_of_decodeFields fun _ _ => rfl, encoded_of_decodeFields fun _ _ => rfl,
    fun s x y h => ?_, fun s x y d q hd hq => ⟨fun hinvalid => ⟨?_, ?_⟩, fun p hp hle => ⟨?_, ?_⟩⟩⟩
  · have hinvalid := exists_mem_pair_regOf_none h
    exact ⟨exec_raises_of_invalid hinvalid, exec_raises_of_invalid hinvalid⟩
  · exact settle_portOperands_of_invalid _ hd hq hinvalid
  · exact settle_portOperands_of_invalid _ hd hq hinvalid
  · rw [← flagWord_eq]
    exact settle_portOperands_of_le _ hd hq hp hle
  · rw [← flagWord_eq]
    exact settle_portOperands_of_le _ hd hq hp hle

end Sys2Proof.Machine
end

section
/-! PROOFS. Trap entry and the return from it (spec/60_exceptions.md R270 to R280), and the cells that nothing has
written (spec/70_reset_and_hazards.md R302). -/

namespace Sys2Proof.Machine

open Sys2Proof.Spec

variable {s : State} {n : Nat} {ret handler top : Int}

/-! ## The two model faults of trap entry (R272, R273) -/

theorem trapEntry_of_unset (h : s.vector n = none) : trapEntry s n ret = .fault (.unsetVector n) := by
  rw [trapEntry, h]

theorem trapEntry_of_none (hset : s.vector n = some handler) (h : toInt (s.reg .rsp) = none) :
    trapEntry s n ret = .fault (.doubleFault n) := by
  rw [trapEntry, hset, h]

theorem trapEntry_of_not_inMem (hset : s.vector n = some handler) (htop : toInt (s.reg .rsp) = some top)
    (h : ¬ InMem s (top - 1)) : trapEntry s n ret = .fault (.doubleFault n) := by
  rw [trapEntry, hset, htop]
  exact if_neg (mt (inBounds_iff s _).1 h)

/-- Settles O22: the two faults in their order, and else the state in which the handler begins. (The name `trapEntry`
is the model's.) -/
theorem trapEntry_spec : Obligations.TrapEntry := by
  refine fun s n ret => ⟨trapEntry_of_unset, fun handler hset => ⟨trapEntry_of_none hset, fun top htop =>
    ⟨trapEntry_of_not_inMem hset htop, fun hmem => ?_⟩⟩⟩
  exact ⟨_, trapEntry_of_inMem hset htop hmem ret, enterHandler_storesOnly s _ ret handler, rfl⟩

/-! ## Trap entry, then IRET (R270, R280) -/

/-- IRET from the beginning of a handler pops the return address from the cell trap entry stored it in. -/
theorem execIret_enterHandler (hmem : InMem s (top - 1)) (hsize : s.memSize ≤ 2 ^ 53) (hret : |ret| ≤ 2 ^ 53) :
    execIret (s.enterHandler (top - 1) ret handler) =
      .next (((s.enterHandler (top - 1) ret handler).returnTo top ret).setIsrDepth s.isrDepth) := by
  obtain ⟨hrsp, -⟩ := toInt_ofInt_of_inMem hmem hsize
  obtain ⟨hcell, -⟩ := enterHandler_storesOnly s (top - 1) ret handler
  have hiret := (execIret_popsAddress (s.enterHandler (top - 1) ret handler)).next hrsp hmem hcell (toInt_ofInt hret)
  rwa [sub_add_cancel] at hiret

/-- Settles O56: IRET pops what trap entry pushed; memory is small enough for RSP to be exact again. -/
theorem iretUndoesTrapEntry : Obligations.IretUndoesTrapEntry := by
  intro s n ret t hsize hret h
  obtain ⟨handler, top, -, htop, hb, rfl⟩ := trapEntry_next.1 h
  have hmem : InMem s (top - 1) := (inBounds_iff _ _).1 hb
  obtain ⟨-, hrsp⟩ := toInt_ofInt_of_inMem hmem hsize
  rw [sub_add_cancel] at hrsp
  refine ⟨_, execIret_enterHandler hmem hsize hret, rfl, rfl, rfl, ?_, fun r hne => ?_⟩
  · exact hrsp.trans htop.symm
  · exact (returnTo_reg_ne _ top ret hne).trans ((enterHandler_reg s _ ret handler r).trans (if_neg hne))

/-! ## A read of a cell that nothing has written (R302, log 4) -/

theorem memRead_of_unwritten {a : Int} (h : InMem s a) (hnone : s.cell a.toNat = none) :
    memRead s a = .error (.fault (.unwrittenCell a.toNat)) := by
  rw [memRead, if_pos (inBounds_of_inMem h), cellValue, hnone]

theorem execLoad_of_unwritten {ty : AddrType} {dst : RegNum} {d : Reg} {k : Int} (hd : regOf dst = some d)
    (hk : toInt (s.reg d) = some k) (h : InMem s (addressOf ty s k))
    (hnone : s.cell (addressOf ty s k).toNat = none) :
    execLoad ty dst s = .fault (.unwrittenCell (addressOf ty s k).toNat) := by
  rw [execLoad_of_regOf hd, settle_target_of_some _ hk, memRead_of_unwritten h hnone, act_error_bind, settle_fault]

section stack

variable (htop : toInt (s.reg .rsp) = some top) (h : InMem s top) (hnone : s.cell top.toNat = none)

include htop h hnone

theorem peek_of_unwritten : peek s = .error (.fault (.unwrittenCell top.toNat)) := by
  rw [peek, addrOf_ok.2 htop, act_ok_bind, memRead_of_unwritten h hnone, act_error_bind]

/-- An instruction that begins with a look at the top of the stack (R191). -/
theorem settle_peek_of_unwritten (f : Int × W64 → Act State) :
    settle s (peek s >>= f) = .fault (.unwrittenCell top.toNat) := by
  rw [peek_of_unwritten htop h hnone, act_error_bind, settle_fault]

theorem settle_pop_of_unwritten (f : W64 × State → Act State) :
    settle s (pop s >>= f) = .fault (.unwrittenCell top.toNat) := by
  rw [pop, peek_of_unwritten htop h hnone, act_error_bind, act_error_bind, settle_fault]

end stack

/-- Settles O59: each of the five reads its cell before anything else that could stop it. -/
theorem unwrittenCellsFault : Obligations.UnwrittenCellsFault := by
  refine ⟨fun s ty dst d k => execLoad_of_unwritten, fun s top htop h hnone => ⟨?_, ?_, ?_, fun dst d hd => ?_⟩⟩
  · exact settle_peek_of_unwritten htop h hnone _
  · exact settle_pop_of_unwritten htop h hnone _
  · exact settle_peek_of_unwritten htop h hnone _
  · exact (execPop_of_regOf hd).trans (settle_pop_of_unwritten htop h hnone _)

end Sys2Proof.Machine
end

section
/-! PROOFS. The interrupts and the end of a run (spec/60_exceptions.md R260, R261, R285, R286): what an IRQ line adds to
`pending`, which step of the core takes from it, and that no step leaves the set of ended states. -/

namespace Sys2Proof.Machine

open Sys2Proof.Spec Sys2Proof.Safety

variable {s t u : State}

/-! ## A step of an IRQ line (R260) -/

theorem count_addPending (l : List Nat) (v n : Nat) :
    (addPending l v).count n = l.count n + if n = v then 1 else 0 := by
  rw [addPending_eq_orderedInsert, List.orderedInsert_count]
  simp only [eq_comm]

/-- Settles O10: the line's step is one `addPending`. -/
theorem irqLineAddsItsVector : Obligations.IrqLineAddsItsVector := by
  intro s u k hm
  have hpending : u.pending = s.pending := by rw [eq_of_moves hm]
  refine ⟨u.raiseIrq k.val, step_of_moves hm nofun, rfl, fun v => ?_⟩
  rw [← hpending]
  exact count_addPending u.pending (64 + k.val) v

/-! ## Taking an interrupt (R261, R262) -/

theorem interruptible_iff (s : State) : s.interruptible = true ↔ s.isrDepth = 0 ∧ s.pending ≠ [] := by
  simp [State.interruptible]

theorem not_interruptible (h : 0 < s.isrDepth ∨ s.pending = []) : s.interruptible = false := by
  rw [Bool.eq_false_iff, ne_eq, interruptible_iff]
  rintro ⟨hdepth, hsome⟩
  rcases h with hpos | hnone
  · exact Nat.ne_of_gt hpos hdepth
  · exact hsome hnone

/-- Whatever the free choice is, the vector taken is a pending one (R262). -/
theorem selectPending_mem (k : Nat) {l : List Nat} (h : l ≠ []) : selectPending k l ∈ l := by
  unfold selectPending
  split
  · exact absurd rfl h
  · exact List.mem_singleton_self _
  · next v rest _ =>
    have hlt : Config.irqSelect k (v :: rest) % (v :: rest).length < (v :: rest).length :=
      Nat.mod_lt _ (Nat.succ_pos _)
    rw [List.getD_eq_getElem _ _ hlt]
    exact List.getElem_mem hlt

theorem coreStep_of_interruptible (h : s.interruptible = true) : coreStep s = takeInterrupt s := by
  rw [coreStep, if_pos h]

/-- A step of the core that takes no interrupt leaves `pending` as it was. -/
theorem coreStep_pending (hi : s.interruptible = false) (h : coreStep s = .next t) : t.pending = s.pending := by
  rcases coreStep_next h with ⟨htrue, -⟩ | ⟨-, -, rfl⟩ | ⟨-, -, ⟨w, -, hw⟩ | ⟨e, -, htrap⟩⟩
  · exact absurd htrue (by simp [hi])
  · rfl
  · rcases execWord_next hw with ⟨i, -, hexec⟩ | ⟨-, htrap⟩
    · exact (exec_effect hexec).sameRest.pending
    · exact (trapEntry_sameRest htrap).1.pending
  · exact (trapEntry_sameRest htrap).1.pending

/-- Settles O8: the core's step is `takeInterrupt` with no handler running, and leaves `pending` with one. -/
theorem pendingInterruptIsTaken : Obligations.PendingInterruptIsTaken := by
  refine ⟨fun s u hm hdepth hsome => ?_, fun s u t hm hdepth hstep => ?_⟩
  · have hu := eq_of_moves hm
    have hi : u.interruptible = true := by rw [hu]; exact (interruptible_iff s).2 ⟨hdepth, hsome⟩
    refine ⟨selectPending s.draws s.pending, selectPending_mem _ hsome, ?_⟩
    rw [step_of_coreMoves hm, coreStep_of_interruptible hi, hu]
    rfl
  · have hu := eq_of_moves hm
    have hi : u.interruptible = false := by rw [hu]; exact not_interruptible (.inl hdepth)
    rw [step_of_coreMoves hm] at hstep
    rw [coreStep_pending hi hstep, hu]

/-! ## A step of a run that has ended (R285, R286) -/

theorem coreStep_of_halted (hh : s.halted = true) (h : 0 < s.isrDepth ∨ s.pending = []) : coreStep s = .next s := by
  rw [coreStep, not_interruptible h, hh]
  rfl

/-- Nothing but `pending`, the ports and the record of turns differs. -/
def OnlyAgentsActed (s t : State) : Prop :=
  t = { s with pending := t.pending, ports := t.ports, turns := t.turns, moves := t.moves }

theorem onlyAgentsActed_refl (s : State) : OnlyAgentsActed s s := rfl

theorem OnlyAgentsActed.trans (h₁ : OnlyAgentsActed s t) (h₂ : OnlyAgentsActed t u) : OnlyAgentsActed s u := by
  rw [OnlyAgentsActed] at h₁ h₂ ⊢
  rw [h₂, h₁]

theorem onlyAgentsActed_takeTurn (s : State) : OnlyAgentsActed s s.takeTurn.2 := by
  unfold State.takeTurn
  split <;> rfl

theorem onlyAgentsActed_agentStep (x : Turn) (s : State) : OnlyAgentsActed s (agentStep x s) := by
  cases x <;> rfl

theorem OnlyAgentsActed.halted_eq (h : OnlyAgentsActed s t) : t.halted = s.halted := by rw [h]

theorem OnlyAgentsActed.isrDepth_eq (h : OnlyAgentsActed s t) : t.isrDepth = s.isrDepth := by rw [h]

/-- The turn that comes next is no IRQ line's, and none after it is (R286). -/
theorem noMoreIrq_takeTurn (h : NoMoreIrq s) : (∀ k, s.takeTurn.1 ≠ .irq k) ∧ NoMoreIrq s.takeTurn.2 := by
  obtain ⟨hlisted, hfree⟩ := h
  cases hturns : s.turns with
  | nil =>
    rw [takeTurn_free hturns]
    exact ⟨hfree s.moves (Nat.le_refl _), hlisted, fun n hn => hfree n (Nat.le_of_succ_le hn)⟩
  | cons x rest =>
    rw [takeTurn_listed hturns]
    rw [hturns] at hlisted
    exact ⟨fun k hx => hlisted k (hx ▸ .head _), fun k hk => hlisted k (.tail _ hk), hfree⟩

theorem agentStep_pending {x : Turn} (h : ∀ k, x ≠ .irq k) (s : State) : (agentStep x s).pending = s.pending := by
  cases x with
  | irq k => exact absurd rfl (h k)
  | core | deliver | take | readyOut | withdraw => rfl

theorem agentStep_noMoreIrq (h : NoMoreIrq s) (x : Turn) : NoMoreIrq (agentStep x s) := by
  cases x <;> exact h

/-- The step of a halted core that can take no interrupt is as if another agent had moved: `agentStep` of the core's
own turn changes nothing. -/
theorem moveOf_of_halted (hh : s.halted = true) (h : 0 < s.isrDepth ∨ s.pending = []) (x : Turn) :
    moveOf x s = .next (agentStep x s) := by
  by_cases hx : x = .core
  · rw [hx]
    exact coreStep_of_halted hh h
  · exact moveOf_agent hx s

/-- A step from an ended run is a next state in which the run has ended. -/
theorem step_of_ended (h : Ended s) : ∃ t, step s = .next t ∧ Ended t ∧ OnlyAgentsActed s t := by
  obtain ⟨hh, hstuck⟩ := h
  have hacted := (onlyAgentsActed_takeTurn s).trans (onlyAgentsActed_agentStep s.takeTurn.1 _)
  refine ⟨agentStep s.takeTurn.1 s.takeTurn.2, moveOf_of_halted ?_ ?_ _, ⟨?_, ?_⟩, hacted⟩
  · rw [takeTurn_halted, hh]
  · rw [takeTurn_isrDepth, takeTurn_pending]
    exact hstuck.imp_right And.left
  · rw [hacted.halted_eq, hh]
  · rw [hacted.isrDepth_eq]
    refine hstuck.imp_right fun ⟨hnone, hirq⟩ => ?_
    obtain ⟨hx, hrest⟩ := noMoreIrq_takeTurn hirq
    rw [agentStep_pending hx, takeTurn_pending]
    exact ⟨hnone, agentStep_noMoreIrq hrest _⟩

theorem run_succ_of_step {k : Nat} (h : step s = .next u) :
    Host.Core.run core (k + 1) s = Host.Core.run core k u := by
  have hcore : core.step s = .next u := h
  simp only [Host.Core.run, hcore]

theorem run_of_ended (k : Nat) (h : Ended s) :
    ∃ t, Host.Core.run core k s = .next t ∧ Ended t ∧ OnlyAgentsActed s t := by
  induction k generalizing s with
  | zero => exact ⟨s, rfl, h, onlyAgentsActed_refl s⟩
  | succ k ih =>
    obtain ⟨u, hstep, hended, hu⟩ := step_of_ended h
    obtain ⟨t, hrun, ht, hacted⟩ := ih hended
    exact ⟨t, (run_succ_of_step hstep).trans hrun, ht, hu.trans hacted⟩

/-- Settles O60: by induction on the number of steps. -/
theorem endedRunStaysEnded : Obligations.EndedRunStaysEnded := fun k _ h => run_of_ended k h

/-- Settles O9: the core's step while halted, and the run that has ended inside a handler. -/
theorem haltedCoreExecutesNothing : Obligations.HaltedCoreExecutesNothing := by
  refine ⟨fun s u hm hh h => ?_, fun k s hh hdepth => ?_⟩
  · rw [step_of_coreMoves hm]
    have hu := eq_of_moves hm
    exact coreStep_of_halted (by rw [hu]; exact hh) (by rw [hu]; exact h)
  · obtain ⟨t, hrun, ⟨hhalted, -⟩, hacted⟩ := run_of_ended k ⟨hh, .inl hdepth⟩
    exact ⟨t, hrun, hhalted, hacted⟩

end Sys2Proof.Machine
end

section
/-! PROOFS. How an instruction may end (spec/60_exceptions.md R259, R266, R271). `EndsInRow` says of a part of an
instruction that it answers, or stops for a reason of the instruction's row; a sequence of such parts is one, and
`InRow` says the same of the whole instruction, with the move of `isr_depth`. -/

namespace Sys2Proof.Machine

open Sys2Proof.Spec

/-- The part `r` of the instruction `i` answers a value with `Q`, or stops for a reason of the row of `i` (R259). -/
def EndsInRow {α : Type} (i : Instr) (Q : α → Prop) (r : Act α) : Prop :=
  match r with
  | .ok x => Q x
  | .error (.raise e) => mayEnter i e.vector
  | .error (.fault f) => mayFault i f

/-- The ways the instruction `i` may end from the state `s` (R259). -/
inductive InRow (i : Instr) (s : State) : Out → Prop
  /-- It completes, no handler entered or left. -/
  | completes (t : State) (ht : t.isrDepth = s.isrDepth) : InRow i s (.next t)
  /-- IRET leaves a handler (R170). -/
  | leaves (t : State) (hi : i = .iret) (ht : t.isrDepth = s.isrDepth - 1) : InRow i s (.next t)
  /-- It is the entry of a handler of its row, and nothing else (R266, R271). -/
  | enters (v : Nat) (hv : mayEnter i v) : InRow i s (raises s v)
  /-- It reaches a model fault of its row. -/
  | faults (f : Fault) (hf : mayFault i f) : InRow i s (.fault f)

variable {α β : Type} {i : Instr} {s : State}

/-! ## What an instruction in its row has done -/

/-- The two model faults of trap entry (R272, R273). -/
theorem trapEntry_fault {v : Nat} {ret : Int} {f : Fault} (h : trapEntry s v ret = .fault f) :
    f = .unsetVector v ∨ f = .doubleFault v := by
  rcases trapEntry_cases s v ret with ⟨t, ht⟩ | hunset | hdouble
  · cases ht.symm.trans h
  · cases hunset.symm.trans h
    exact .inl rfl
  · cases hdouble.symm.trans h
    exact .inr rfl

theorem trapEntry_ne_refused (s : State) (v : Nat) (ret : Int) (r : Refusal) : trapEntry s v ret ≠ .refused r := by
  intro hr
  rcases trapEntry_cases s v ret with ⟨t, ht⟩ | hunset | hdouble
  · cases ht.symm.trans hr
  · cases hunset.symm.trans hr
  · cases hdouble.symm.trans hr

section outcome

variable {o : Out} (h : InRow i s o)

include h

theorem InRow.mayFault_of_fault {f : Fault} (hf : o = .fault f) : mayFault i f := by
  cases h with
  | completes t | leaves t => cases hf
  | enters v hv =>
    rcases trapEntry_fault hf with rfl | rfl
    · exact hv
    · exact hv
  | faults g hg =>
    cases hf
    exact hg

theorem InRow.not_refused (r : Refusal) : o ≠ .refused r := by
  cases h with
  | completes t | leaves t | faults g => exact nofun
  | enters v => exact trapEntry_ne_refused s v _ r

theorem InRow.of_next {t : State} (ht : o = .next t) :
    t.isrDepth = s.isrDepth ∨ (i = .iret ∧ t.isrDepth = s.isrDepth - 1) ∨
      ∃ v, mayEnter i v ∧ o = raises s v := by
  cases h with
  | completes u hu =>
    cases ht
    exact .inl hu
  | leaves u hi hu =>
    cases ht
    exact .inr (.inl ⟨hi, hu⟩)
  | enters v hv => exact .inr (.inr ⟨v, hv, rfl⟩)
  | faults g => cases ht

end outcome

/-! ## From the parts to the instruction (R7) -/

theorem EndsInRow.bind {P : α → Prop} {Q : β → Prop} {r : Act α} {f : α → Act β} (hr : EndsInRow i P r)
    (hf : ∀ x, P x → EndsInRow i Q (f x)) : EndsInRow i Q (r >>= f) := by
  rcases r with (e | g) | x
  · exact hr
  · exact hr
  · exact hf x hr

theorem InRow.settleWith {Q : α → Prop} {r : Act α} {k : α → Out} (hr : EndsInRow i Q r)
    (hk : ∀ x, Q x → InRow i s (k x)) : InRow i s (settleWith s r k) := by
  rcases r with (e | f) | x
  · exact .enters e.vector hr
  · exact .faults f hr
  · exact hk x hr

/-- An instruction that completes in a next state with `isr_depth` as it was. -/
theorem InRow.settle {r : Act State} (hr : EndsInRow i (fun t => t.isrDepth = s.isrDepth) r) :
    InRow i s (settle s r) :=
  .settleWith hr fun t ht => .completes t ht

/-! ## The parts of an instruction -/

theorem endsInRow_opreg {p : RegNum} (h : mayEnter i 3) : EndsInRow i (fun _ => True) (opreg p) := by
  rcases opreg_cases p with ⟨d, -, hok⟩ | ⟨-, herr⟩
  · rw [hok]
    trivial
  · rw [herr]
    exact h

/-- `InRow.settle` past the check of the first Register parameter (R90). -/
theorem InRow.settle_opreg {p : RegNum} {k : Reg → Act State} (h : mayEnter i 3)
    (hk : ∀ d, EndsInRow i (fun t => t.isrDepth = s.isrDepth) (k d)) :
    InRow i s (Machine.settle s (opreg p >>= k)) :=
  .settle (.bind (endsInRow_opreg h) fun d _ => hk d)

theorem endsInRow_addrOf {w : W64} (h : mayEnter i 2) : EndsInRow i (fun _ => True) (addrOf w) := by
  unfold addrOf
  split
  · trivial
  · exact h

theorem endsInRow_target {ty : AddrType} {r : Reg} (h : mayEnter i 2) :
    EndsInRow i (fun _ => True) (target ty s r) :=
  .bind (endsInRow_addrOf h) fun _ _ => trivial

/-- A read also reaches the fault of a cell that nothing has written (log 4). -/
theorem endsInRow_memRead {a : Int} (h : mayEnter i 2) (hcell : ∀ c, mayFault i (.unwrittenCell c)) :
    EndsInRow i (fun _ => True) (memRead s a) := by
  unfold memRead cellValue
  split
  · split
    · trivial
    · exact hcell a.toNat
  · exact h

theorem endsInRow_memWrite {a : Int} {w : W64} (h : mayEnter i 2) :
    EndsInRow i (fun t => t.isrDepth = s.isrDepth) (memWrite s a w) := by
  unfold memWrite
  split
  · rfl
  · exact h

theorem endsInRow_push {w : W64} (h : mayEnter i 2) :
    EndsInRow i (fun t => t.isrDepth = s.isrDepth) (push s w) :=
  .bind (endsInRow_addrOf h) fun _ _ => .bind (endsInRow_memWrite h) fun _ ht => ht

theorem endsInRow_peek (h : mayEnter i 2) (hcell : ∀ c, mayFault i (.unwrittenCell c)) :
    EndsInRow i (fun _ => True) (peek s) :=
  .bind (endsInRow_addrOf h) fun _ _ => .bind (endsInRow_memRead h hcell) fun _ _ => trivial

theorem endsInRow_pop (h : mayEnter i 2) (hcell : ∀ c, mayFault i (.unwrittenCell c)) :
    EndsInRow i (fun p => p.2.isrDepth = s.isrDepth) (pop s) :=
  .bind (endsInRow_peek h hcell) fun _ _ => rfl

theorem endsInRow_portOf {q : Reg} (h : mayEnter i 5) : EndsInRow i (fun _ => True) (portOf s q) := by
  unfold portOf
  split
  · split
    · trivial
    · exact h
  · exact h

theorem endsInRow_readyCheck {b : Bool} (h : mayEnter i 4) : EndsInRow i (fun _ => True) (readyCheck b) := by
  cases b with
  | true => exact h
  | false => trivial

theorem endsInRow_vectorField {v : BitVec 16} (h : mayFault i .vectorOutOfRange) :
    EndsInRow i (fun _ => True) (vectorField v) := by
  unfold vectorField
  split
  · trivial
  · exact h

/-- The vector of INT is an entry of the table (R218). -/
theorem endsInRow_vectorOf {r : Reg} (h : mayFault i .vectorOutOfRange) :
    EndsInRow i (fun v => v ≤ 511) (vectorOf s r) := by
  unfold vectorOf
  split
  · split
    · next hlt => exact Nat.le_of_lt_succ hlt
    · exact h
  · exact h

theorem endsInRow_bitwiseResult {r : Option W64} (h : mayFault i .bitwiseOperandNotInteger) :
    EndsInRow i (fun _ => True) (bitwiseResult r) := by
  cases r with
  | none => exact h
  | some w => trivial

theorem endsInRow_poppedFlags {w : W64} (h : mayFault i .popfNotFlagsWord) :
    EndsInRow i (fun _ => True) (poppedFlags w) := by
  unfold poppedFlags
  split
  · trivial
  · exact h

/-- Only a count in a register can stop RET (R168). -/
theorem endsInRow_retCount {c : RetCount} : EndsInRow (.ret c) (fun _ => True) (retCount s c) := by
  cases c with
  | noOperand => trivial
  | inReg p =>
    have hreg : mayEnter (.ret (.inReg p)) 3 := .inl rfl
    refine .bind (endsInRow_opreg hreg) fun x _ => ?_
    split
    · trivial
    · exact ⟨p, rfl⟩

/-! ## The templates of Math and Bitwise -/

theorem mathRR_inRow {f : W64 → W64 → NumResult} {dst src : RegNum} (h : mayEnter i 3) :
    InRow i s (mathRR f dst src s) :=
  .settle_opreg h fun d => .bind (endsInRow_opreg h) fun _ _ => setRegNum_isrDepth s d _

theorem mathR_inRow {f : W64 → NumResult} {dst : RegNum} (h : mayEnter i 3) : InRow i s (mathR f dst s) :=
  .settle_opreg h fun d => setRegNum_isrDepth s d _

theorem divRR_inRow {f : W64 → W64 → NumResult} {dst src : RegNum} (h : mayEnter i 3) (hzero : mayEnter i 0) :
    InRow i s (divRR f dst src s) := by
  refine .settle_opreg h fun d => .bind (endsInRow_opreg h) fun r _ => ?_
  split
  · exact hzero
  · exact setRegNum_isrDepth s d _

theorem flagsRR_inRow {f : W64 → W64 → NumResult} {v1 v2 : RegNum} (h : mayEnter i 3) :
    InRow i s (flagsRR f v1 v2 s) :=
  .settle_opreg h fun _ => .bind (endsInRow_opreg h) fun _ _ => rfl

theorem bitwiseRR_inRow {f : W64 → W64 → Option W64} {dst src : RegNum} (h : mayEnter i 3)
    (hint : mayFault i .bitwiseOperandNotInteger) : InRow i s (bitwiseRR f dst src s) :=
  .settle_opreg h fun _ => .bind (endsInRow_opreg h) fun _ _ => .bind (endsInRow_bitwiseResult hint) fun _ _ => rfl

theorem execNot_inRow {dst : RegNum} (h : mayEnter i 3) (hint : mayFault i .bitwiseOperandNotInteger) :
    InRow i s (execNot dst s) :=
  .settle_opreg h fun _ => .bind (endsInRow_bitwiseResult hint) fun _ _ => rfl

/-! ## Control flow and the stack -/

theorem jumpIf_inRow {taken : Bool} {ty : AddrType} {tgt : RegNum} (h : mayEnter i 3) (haddr : mayEnter i 2) :
    InRow i s (jumpIf taken ty tgt s) := by
  refine .settle_opreg h fun r => ?_
  cases taken with
  | true => exact .bind (endsInRow_target haddr) fun _ _ => rfl
  | false => exact (rfl : s.advance.isrDepth = s.isrDepth)

theorem execCall_inRow {ty : AddrType} {tgt : RegNum} (h : mayEnter i 3) (haddr : mayEnter i 2) :
    InRow i s (execCall ty tgt s) :=
  .settle_opreg h fun _ => .bind (endsInRow_target haddr) fun _ _ => .bind (endsInRow_push haddr) fun _ hu => hu

theorem execRet_inRow {c : RetCount} : InRow (.ret c) s (execRet c s) := by
  have haddr : mayEnter (.ret c) 2 := by
    cases c with
    | noOperand => rfl
    | inReg p => exact .inr rfl
  have hcell : ∀ a, mayFault (.ret c) (.unwrittenCell a) := fun _ => .inr (.inr (.inl ⟨c, rfl⟩))
  exact .settle (.bind endsInRow_retCount fun _ _ => .bind (endsInRow_peek haddr hcell) fun _ _ =>
    .bind (endsInRow_addrOf haddr) fun _ _ => rfl)

theorem execIret_inRow : InRow .iret s (execIret s) := by
  have haddr : mayEnter .iret 2 := rfl
  have hcell : ∀ a, mayFault .iret (.unwrittenCell a) := fun _ => .inr (.inr (.inr (.inr rfl)))
  have hparts : EndsInRow .iret (fun t => t.isrDepth = s.isrDepth - 1) (returnFromHandler s) :=
    .bind (endsInRow_peek haddr hcell) fun _ _ => .bind (endsInRow_addrOf haddr) fun _ _ => rfl
  exact .settleWith hparts fun t ht => .leaves t rfl ht

theorem execPush_inRow {src : RegNum} (h : mayEnter i 3) (haddr : mayEnter i 2) : InRow i s (execPush src s) :=
  .settle_opreg h fun _ => .bind (endsInRow_push haddr) fun _ hu => hu

theorem execPushf_inRow (haddr : mayEnter i 2) : InRow i s (execPushf s) :=
  .settle (.bind (endsInRow_push haddr) fun _ hu => hu)

theorem execPop_inRow {dst : RegNum} (h : mayEnter i 3) (haddr : mayEnter i 2)
    (hcell : ∀ a, mayFault i (.unwrittenCell a)) : InRow i s (execPop dst s) :=
  .settle_opreg h fun _ => .bind (endsInRow_pop haddr hcell) fun _ hp => hp

theorem execPopf_inRow (haddr : mayEnter i 2) (hcell : ∀ a, mayFault i (.unwrittenCell a))
    (hflags : mayFault i .popfNotFlagsWord) : InRow i s (execPopf s) :=
  .settle (.bind (endsInRow_pop haddr hcell) fun _ hp => .bind (endsInRow_poppedFlags hflags) fun _ _ => hp)

/-! ## Data, Interrupt and IO -/

theorem execLoad_inRow {ty : AddrType} {dst : RegNum} (h : mayEnter i 3) (haddr : mayEnter i 2)
    (hcell : ∀ a, mayFault i (.unwrittenCell a)) : InRow i s (execLoad ty dst s) :=
  .settle_opreg h fun _ => .bind (endsInRow_target haddr) fun _ _ =>
    .bind (endsInRow_memRead haddr hcell) fun _ _ => rfl

theorem storeReg_inRow {ty : AddrType} {addr src : RegNum} (h : mayEnter i 3) (haddr : mayEnter i 2) :
    InRow i s (storeReg ty addr src s) :=
  .settle_opreg h fun _ => .bind (endsInRow_opreg h) fun _ _ => .bind (endsInRow_target haddr) fun _ _ =>
    .bind (endsInRow_memWrite haddr) fun _ ht => ht

theorem setHandler_inRow {ty : AddrType} {v : BitVec 16} {addr : RegNum} (h : mayEnter i 3)
    (haddr : mayEnter i 2) (hrange : mayFault i .vectorOutOfRange) : InRow i s (setHandler ty v addr s) :=
  .settle_opreg h fun _ => .bind (endsInRow_vectorField hrange) fun _ _ =>
    .bind (endsInRow_target haddr) fun _ _ => rfl

/-- INT also enters the handler of the vector it reads (R218). -/
theorem execInt_inRow {vec : RegNum} (h : mayEnter i 3) (hvector : ∀ v, v ≤ 511 → mayEnter i v)
    (hrange : mayFault i .vectorOutOfRange) : InRow i s (execInt vec s) :=
  .settleWith (.bind (endsInRow_opreg h) fun _ _ => endsInRow_vectorOf hrange) fun v hv => .enters v (hvector v hv)

/-- IN and OUT: past the checks of the registers and of the port number, the ready check (R235). -/
theorem settle_transfer_inRow {x y : RegNum} {notReady : Nat → Bool} {f : Reg → Nat → State} (h : mayEnter i 3)
    (hport : mayEnter i 5) (hready : mayEnter i 4) (hf : ∀ d p, (f d p).isrDepth = s.isrDepth) :
    InRow i s (settle s (opreg x >>= fun d => opreg y >>= fun q => portOf s q >>= fun p =>
      readyCheck (notReady p) >>= fun _ => .ok (f d p))) :=
  .settle_opreg h fun d => .bind (endsInRow_opreg h) fun _ _ => .bind (endsInRow_portOf hport) fun p _ =>
    .bind (endsInRow_readyCheck hready) fun _ _ => hf d p

/-- INR and OUTR: no ready check (R233, R234). -/
theorem settle_flagRead_inRow {x y : RegNum} {f : Reg → Nat → State} (h : mayEnter i 3)
    (hport : mayEnter i 5) (hf : ∀ d p, (f d p).isrDepth = s.isrDepth) :
    InRow i s (settle s (opreg x >>= fun d => opreg y >>= fun q => portOf s q >>= fun p => .ok (f d p))) :=
  .settle_opreg h fun d => .bind (endsInRow_opreg h) fun _ _ => .bind (endsInRow_portOf hport) fun p _ => hf d p

/-! ## Every instruction -/

theorem exec_inRow (i : Instr) (s : State) : InRow i s (exec i s) := by
  cases i with
  | add | sub | mul | max | min => exact mathRR_inRow rfl
  | div | idiv | mod => exact divRR_inRow (.inl rfl) (.inr rfl)
  | exp => exact mathRR_inRow (f := fun a b => .word (Config.pow a b)) rfl
  | expe => exact mathR_inRow (f := fun a => .word (Config.pow a eulerWord)) rfl
  | log => exact mathR_inRow (f := fun a => .word (Config.log10 a)) rfl
  | logn => exact mathR_inRow (f := fun a => .word (Config.ln a)) rfl
  | sqrt | flr | ceil | abs => exact mathR_inRow rfl
  | sin => exact mathR_inRow (f := fun a => .word (Config.sin a)) rfl
  | cos => exact mathR_inRow (f := fun a => .word (Config.cos a)) rfl
  | tan => exact mathR_inRow (f := fun a => .word (Config.tan a)) rfl
  | asin => exact mathR_inRow (f := fun a => .word (Config.asin a)) rfl
  | acos => exact mathR_inRow (f := fun a => .word (Config.acos a)) rfl
  | atan => exact mathR_inRow (f := fun a => .word (Config.atan a)) rfl
  | inc => exact mathR_inRow (f := fun a => numAdd a oneWord) rfl
  | dec => exact mathR_inRow (f := fun a => numSub a oneWord) rfl
  | cmp => exact flagsRR_inRow (f := fun a b => numSub b a) rfl
  | test => exact flagsRR_inRow rfl
  | and a b => exact bitwiseRR_inRow rfl (.inl ⟨a, b, by simp⟩)
  | or a b => exact bitwiseRR_inRow rfl (.inl ⟨a, b, by simp⟩)
  | xor a b => exact bitwiseRR_inRow rfl (.inl ⟨a, b, by simp⟩)
  | shl a b => exact bitwiseRR_inRow rfl (.inl ⟨a, b, by simp⟩)
  | shr a b => exact bitwiseRR_inRow rfl (.inl ⟨a, b, by simp⟩)
  | not a => exact execNot_inRow rfl (.inr ⟨a, rfl⟩)
  | rand | ldi | rip => exact .settle_opreg rfl fun _ => rfl
  | mov | swp => exact .settle_opreg rfl fun _ => .bind (endsInRow_opreg rfl) fun _ _ => rfl
  | jmp | jp | jnp | jz | jnz | js | jns | jl | jle | jg | jge | loop =>
    exact jumpIf_inRow (.inl rfl) (.inr rfl)
  | call => exact execCall_inRow (.inl rfl) (.inr rfl)
  | ret => exact execRet_inRow
  | hlt | nop => exact .completes _ rfl
  | iret => exact execIret_inRow
  | push => exact execPush_inRow (.inl rfl) (.inr rfl)
  | pushf => exact execPushf_inRow rfl
  | pop dst => exact execPop_inRow (.inl rfl) (.inr rfl) fun _ => .inr (.inl ⟨dst, rfl⟩)
  | popf => exact execPopf_inRow rfl (fun _ => .inr (.inr (.inr (.inl rfl)))) rfl
  | load ty dst => exact execLoad_inRow (.inl rfl) (.inr rfl) fun _ => .inl ⟨ty, dst, rfl⟩
  | strr | stra => exact storeReg_inRow (.inl rfl) (.inr rfl)
  | setisrr v a => exact setHandler_inRow (.inl rfl) (.inr rfl) (.inl ⟨v, a, .inl rfl⟩)
  | setisra v a => exact setHandler_inRow (.inl rfl) (.inr rfl) (.inl ⟨v, a, .inr rfl⟩)
  | int vec => exact execInt_inRow (.inl rfl) (fun _ => .inr) (.inr ⟨vec, rfl⟩)
  | inp | outp => exact settle_transfer_inRow (.inl rfl) (.inr (.inl rfl)) (.inr (.inr rfl)) fun _ _ => rfl
  | inr | outr => exact settle_flagRead_inRow (.inl rfl) (.inr rfl) fun _ _ => rfl

/-- Settles O17: every instruction ends in its row, and what that says of each outcome. -/
theorem onlyTabledStopsAndPrecise : Obligations.OnlyTabledStopsAndPrecise := by
  intro i s
  have h := exec_inRow i s
  exact ⟨fun _ => h.mayFault_of_fault, h.not_refused, fun _ => h.of_next⟩

end Sys2Proof.Machine
end
